-- ==== Sys2Proof/Word.lean ====
section
/-! DEFINITION. The word types of the XMF block (00_scope.md R11, R12; 10_state.md R26). -/

namespace Sys2Proof

/-- A byte: an unsigned 8-bit value (R12). -/
abbrev Byte := BitVec 8

/-- A 16-bit register field (IN_LEN, TID, CRC_ACC, ...). -/
abbrev Half := BitVec 16

/-- A bus word: the data of one host access (R11, R26). -/
abbrev Word := BitVec 32

end Sys2Proof
end

