-- ==== Sys2Proof/Config.lean ====
section
/-! DEFINITION. What is fixed for the block (00_scope.md section 4, 10_state.md R27) and the free values of
93_implementation_defined.md U1 and U3. -/

namespace Sys2Proof.Config

/-- The constant of the ID register (10_state.md R27). -/
def idValue : Word := 0x584D4601

/-- The size of the decoded register window (00_scope.md R8, 20_memory.md R60). -/
def windowSize : Nat := 0x4000

/-- The window offset of byte 0 of IBUF (10_state.md R47). -/
def ibufBase : Nat := 0x1000

/-- The window offset of byte 0 of OBUF (10_state.md R48). -/
def obufBase : Nat := 0x2000

/-- The reference value of the open parameter BUF_SIZE (00_scope.md R9).
DESIGN CHOICE (entry 1), unsafe for a claim about `State.reset` alone. -/
def referenceBufSize : Half := 1024

/-- The value of the open parameter BASE in `State.reset` (00_scope.md R8). DESIGN CHOICE (entry 2), unsafe
for a claim about `State.reset` alone. -/
def resetBase : Nat := 0

/-- FREE VALUE (93_implementation_defined.md U1): the byte that a buffer byte at a window offset (second argument) holds
after the n-th power-on reset (first argument) and before any write. It has no body, so nothing can be proved of its value. Entry 4, safe. -/
opaque powerOnByte : Nat → Nat → BitVec 8

/-- FREE VALUE (93_implementation_defined.md U3): the word that the n-th unspecified host read while BUSY = 1 returns.
It has no body. Entry 5, safe. -/
opaque busyReadData : Nat → BitVec 32

end Sys2Proof.Config
end

