-- ==== Sys2Proof/Machine/State.lean ====
section
/-! DEFINITION. The state of the XMF block (10_state.md R20 to R53), the agents' pending moves, and the state after power-on
reset (70_reset_and_hazards.md R250). Plain data throughout. -/

namespace Sys2Proof.Machine

/-- Error categories, field STATUS.ERR (60_exceptions.md R221). Codes 6 and 7 are never produced (U7). -/
inductive ErrCat where
  | none | length | framing | checksum | illegal | range
  deriving DecidableEq, Repr

/-- Error details, field STATUS.DET (60_exceptions.md R222). Codes 13 to 15 are never produced (U7). -/
inductive ErrDet where
  | none | short | start | endMark | odd | nonhex | lenfield | crc | lrc | opcode | rsvbits | inlen | outlen
  deriving DecidableEq, Repr

/-- What one host access asks for (20_memory.md R63, R64). -/
inductive AccessOp where
  | read
  | write (data : Word)
  deriving DecidableEq, Repr

/-- One host bus access (10_state.md R21): its bus address, its size in bytes and its direction. The block accepts only
size 4 (20_memory.md R61); the other sizes are there to be answered with a bus error. -/
structure Access where
  addr : Nat
  size : Nat
  op   : AccessOp
  deriving DecidableEq, Repr

/-- One move of an agent (10_state.md R20). -/
inductive Turn where
  /-- The host performs one bus access (R21). -/
  | host (a : Access)
  /-- The engine takes its completion step if it is enabled (R22). -/
  | engine
  /-- The power-on reset input is asserted (70_reset_and_hazards.md R250). -/
  | resetAssert
  /-- The power-on reset input is released (R250). -/
  | resetRelease
  deriving DecidableEq, Repr

/-- Buffer bytes by window offset, in one canonical form: offsets strictly rising; exactly the bytes written
since power-on are listed (entry 4). -/
abbrev Memory := List Host.Cell

/-- The complete state (10_state.md R23), then the model's own fields. -/
structure State where
  /-- PARAM.BUF_SIZE, read-only (R28). -/
  param    : Half
  /-- CTRL.IE (R29). -/
  ie       : Bool
  /-- CTRL.TIDINC (R29). -/
  tidinc   : Bool
  /-- STATUS.BUSY (R30). -/
  busy     : Bool
  /-- STATUS.DONE (R30). -/
  done     : Bool
  /-- STATUS.WERR (R30). -/
  werr     : Bool
  /-- STATUS.ERR (R30, R221). -/
  err      : ErrCat
  /-- STATUS.DET (R30, R222). -/
  det      : ErrDet
  /-- STATUS.LASTOP (R30). -/
  lastop   : BitVec 4
  /-- IN_LEN (R32). -/
  inLen    : Half
  /-- OUT_LEN (R33). -/
  outLen   : Half
  /-- UNIT (R34). -/
  unit     : Byte
  /-- TID (R35). -/
  tid      : Half
  /-- CRC_ACC (R36). -/
  crcAcc   : Half
  /-- LRC_SUM (R38); LRC_VAL is a view of it (R40). -/
  lrcSum   : Byte
  /-- CHK_CALC (R41). -/
  chkCalc  : Half
  /-- CHK_RX (R42). -/
  chkRx    : Half
  /-- RX_UNIT (R43). -/
  rxUnit   : Byte
  /-- RX_TID (R44). -/
  rxTid    : Half
  /-- RX_PID (R45). -/
  rxPid    : Half
  /-- RX_LEN (R46). -/
  rxLen    : Half
  /-- PENDING, the latched command word (R49). -/
  pending  : Word
  /-- IBUF at 0x1000 and OBUF at 0x2000 (R47, R48). -/
  mem      : Memory
  /-- MODEL: the parameter BASE (00_scope.md R8). -/
  base     : Nat
  /-- MODEL: the power-on reset input is asserted (R250). -/
  resetIn  : Bool
  /-- MODEL: what the agents do next, oldest first (entry 3). -/
  turns    : List Turn
  /-- MODEL: the data the bus returned for the last host access (entry 9). -/
  reply    : Option Word
  /-- MODEL: number of power-on resets, index of the free values of U1 (entry 4). -/
  powerOns : Nat
  /-- MODEL: number of unspecified reads, index of the free values of U3 (entry 5). -/
  busyReads : Nat
  deriving DecidableEq, Repr

/-- Why a step stops. -/
inductive Fault where
  /-- A host access of another size than 32 bits, at an offset not a multiple of 4, or at an unmapped offset
  (20_memory.md R61, R65, R66; U4). Raised by the host step. The spec names this fault outcome; safe (entry 7). -/
  | busError (off : Nat)
  deriving DecidableEq, Repr

/-- Why an instruction has no meaning. -/
inductive Refusal where
  /-- The instruction is not modelled yet. Raised by no arm of exec; safe. -/
  | notModelled (mnemonic : String)
  deriving DecidableEq, Repr

/-- The machine right after power-on reset (70_reset_and_hazards.md R250), with nothing for any agent to do. -/
def State.reset : State where
  param    := Config.referenceBufSize
  ie       := false
  tidinc   := false
  busy     := false
  done     := false
  werr     := false
  err      := .none
  det      := .none
  lastop   := 0
  inLen    := 0
  outLen   := 0
  unit     := 0
  tid      := 0
  crcAcc   := 0xFFFF
  lrcSum   := 0
  chkCalc  := 0
  chkRx    := 0
  rxUnit   := 0
  rxTid    := 0
  rxPid    := 0
  rxLen    := 0
  pending  := 0
  mem      := []
  base     := Config.resetBase
  resetIn  := false
  turns    := []
  reply    := none
  powerOns := 0
  busyReads := 0

end Sys2Proof.Machine
end

