-- ==== Sys2Proof/Machine/Ops.lean ====
section
/-! DEFINITION. Named operations: buffer bytes, the end of a command body (60_exceptions.md R224, R226; 44_control.md R203),
acceptance (R202), the two resets (70_reset_and_hazards.md R250, R251) and the accumulator feeds. -/

namespace Sys2Proof.Machine

/-- The listed byte at a window offset, if it was written since power-on. -/
def Memory.lookup : Memory → Nat → Option Byte
  | [], _ => none
  | (k, b) :: m, a => if k = a then some b else Memory.lookup m a

/-- Write one byte, keeping the offsets strictly rising. -/
def Memory.insert : Memory → Nat → Byte → Memory
  | [], a, b => [(a, b)]
  | (k, c) :: m, a, b =>
    if a < k then (a, b) :: (k, c) :: m
    else if a = k then (a, b) :: m
    else (k, c) :: Memory.insert m a b

/-- Write a byte string at consecutive offsets. -/
def Memory.insertBytes : Memory → Nat → List Byte → Memory
  | m, _, [] => m
  | m, a, b :: bs => Memory.insertBytes (Memory.insert m a b) (a + 1) bs

/-- The canonical form: offsets strictly rising. -/
abbrev Memory.wf (m : Memory) : Prop := m.Pairwise (fun x y => x.1 < y.1)

/-- BUF_SIZE (00_scope.md R9), as PARAM holds it (10_state.md R28). -/
def State.bufSize (s : State) : Nat := s.param.toNat

/-- The byte at a window offset of IBUF or OBUF. A byte not written since power-on is a free value (U1, entry 4). -/
def State.readByte (s : State) (a : Nat) : Byte :=
  (Memory.lookup s.mem a).getD (Config.powerOnByte s.powerOns a)

/-- The `n` bytes from a window offset on. -/
def State.readBytes (s : State) (a n : Nat) : List Byte :=
  (List.range' a n).map s.readByte

/-- Write a byte string into the buffers from a window offset on. -/
def State.storeBytes (s : State) (a : Nat) (bs : List Byte) : State :=
  { s with mem := Memory.insertBytes s.mem a bs }

/-- How a command body ends (44_control.md R203): normally, or by `raise Err(cat, det)`, with the state that the body
leaves either way. -/
inductive BodyResult where
  | ok (s : State)
  | err (s : State) (cat : ErrCat) (det : ErrDet)
  deriving DecidableEq, Repr

/-- `raise Err(cat, det)` (60_exceptions.md R224): the body ends here; of its writes `s` holds those that R226 keeps. -/
def raiseErr (s : State) (cat : ErrCat) (det : ErrDet) : BodyResult := .err s cat det

/-- The status part of the completion step (44_control.md R203). -/
def State.finish (s : State) (cat : ErrCat) (det : ErrDet) : State :=
  { s with err := cat, det := det, busy := false, done := true }

/-- The completion step after the body (R203): on an error OUT_LEN <- 0 as well (R226). -/
def complete : BodyResult → State
  | .ok s => s.finish .none .none
  | .err s cat det => { s.finish cat det with outLen := 0 }

/-- Acceptance of a CMD write while BUSY = 0 (44_control.md R202). -/
def State.accept (s : State) (v : Word) : State :=
  { s with
    pending := v
    done := false
    werr := false
    err := .none
    det := .none
    lastop := v.extractLsb' 0 4
    busy := true }

/-- Soft reset (44_control.md R210, 70_reset_and_hazards.md R251): every register at its reset value, PENDING cleared,
no command in flight, the buffers kept. PARAM's reset value is the value it holds (R28). -/
def State.softReset (s : State) : State :=
  { s with
    ie := false
    tidinc := false
    busy := false
    done := false
    werr := false
    err := .none
    det := .none
    lastop := 0
    inLen := 0
    outLen := 0
    unit := 0
    tid := 0
    crcAcc := 0xFFFF
    lrcSum := 0
    chkCalc := 0
    chkRx := 0
    rxUnit := 0
    rxTid := 0
    rxPid := 0
    rxLen := 0
    pending := 0 }

/-- Power-on reset (70_reset_and_hazards.md R250): the registers as after a soft reset, the buffers unspecified again
(U1): nothing listed, and fresh free values. -/
def State.powerOnReset (s : State) : State :=
  { s.softReset with mem := [], powerOns := s.powerOns + 1 }

/-- A write that is dropped because a command runs (70_reset_and_hazards.md R262). -/
def State.dropWrite (s : State) : State := { s with werr := true }

/-- A body's output (41 to 43, `OBUF[0..len) <- bs` and `OUT_LEN <- len`). -/
def State.putOutput (s : State) (bs : List Byte) : State :=
  { s.storeBytes Config.obufBase bs with outLen := BitVec.ofNat 16 bs.length }

end Sys2Proof.Machine
end

