-- ==== Sys2Proof/Machine/Operands.lean ====
section
/-! DEFINITION. Operand forms: byte strings and 16-bit fields (00_scope.md R14), the operands a command body reads
(30_encoding.md R83), buffer words (20_memory.md R62) and the address decode (R60, R65; 10_state.md section 3). -/

namespace Sys2Proof.Machine

/-- `be16(v)`: high byte first (R14). -/
def be16 (v : Half) : List Byte := [v.extractLsb' 8 8, v.extractLsb' 0 8]

/-- `le16(v)`: low byte first (R14). -/
def le16 (v : Half) : List Byte := [v.extractLsb' 0 8, v.extractLsb' 8 8]

/-- The 16-bit value of a high and a low byte: `hi*256 + lo` (R14, `rd_be16`). -/
def half (hi lo : Byte) : Half := hi ++ lo

/-- `s[i..j)` (R14): empty when `j <= i`. -/
def slice (s : List Byte) (i j : Nat) : List Byte := (s.drop i).take (j - i)

/-- `IBUF[i]` (R15). -/
def State.ibufAt (s : State) (i : Nat) : Byte := s.readByte (Config.ibufBase + i)

/-- `OBUF[i]` (R15). -/
def State.obufAt (s : State) (i : Nat) : Byte := s.readByte (Config.obufBase + i)

/-- `IBUF[i..j)` (R15). -/
def State.ibufSlice (s : State) (i j : Nat) : List Byte := s.readBytes (Config.ibufBase + i) (j - i)

/-- `OBUF[i..j)` (R15). -/
def State.obufSlice (s : State) (i j : Nat) : List Byte := s.readBytes (Config.obufBase + i) (j - i)

/-- `rd_be16(IBUF, i)` (R14). -/
def State.ibufHalf (s : State) (i : Nat) : Half := half (s.ibufAt i) (s.ibufAt (i + 1))

/-- The input length of a command (R83). -/
def State.inCount (s : State) : Nat := s.inLen.toNat

/-- The input bytes of a command, `IBUF[0..IN_LEN)` (R83). -/
def State.input (s : State) : List Byte := s.ibufSlice 0 s.inCount

/-- Four buffer bytes as a bus word: byte 0 in bits [7:0] (20_memory.md R62). -/
def packWord (b0 b1 b2 b3 : Byte) : Word := b3 ++ b2 ++ b1 ++ b0

/-- The four bytes of a bus word, byte 0 first (R62, R64). -/
def unpackWord (v : Word) : List Byte :=
  [v.extractLsb' 0 8, v.extractLsb' 8 8, v.extractLsb' 16 8, v.extractLsb' 24 8]

/-- The packed word at a buffer offset (R62). -/
def State.readWord (s : State) (off : Nat) : Word :=
  packWord (s.readByte off) (s.readByte (off + 1)) (s.readByte (off + 2)) (s.readByte (off + 3))

/-- The registers of the map of 10_state.md section 3. -/
inductive Reg where
  | id | param | ctrl | status | cmd | inLen | outLen | unit | tid | crcAcc | crcDin | lrcSum | lrcDin | lrcVal
  | chkCalc | chkRx | rxUnit | rxTid | rxPid | rxLen
  deriving DecidableEq, Repr

/-- The window offset of a register (10_state.md section 3). -/
def regOffset : Reg → Nat
  | .id => 0x000
  | .param => 0x004
  | .ctrl => 0x008
  | .status => 0x00C
  | .cmd => 0x010
  | .inLen => 0x014
  | .outLen => 0x018
  | .unit => 0x01C
  | .tid => 0x020
  | .crcAcc => 0x024
  | .crcDin => 0x028
  | .lrcSum => 0x02C
  | .lrcDin => 0x030
  | .lrcVal => 0x034
  | .chkCalc => 0x038
  | .chkRx => 0x03C
  | .rxUnit => 0x040
  | .rxTid => 0x044
  | .rxPid => 0x048
  | .rxLen => 0x04C

/-- The register at a window offset, if there is one (10_state.md section 3). -/
def regAt : Nat → Option Reg
  | 0x000 => some .id
  | 0x004 => some .param
  | 0x008 => some .ctrl
  | 0x00C => some .status
  | 0x010 => some .cmd
  | 0x014 => some .inLen
  | 0x018 => some .outLen
  | 0x01C => some .unit
  | 0x020 => some .tid
  | 0x024 => some .crcAcc
  | 0x028 => some .crcDin
  | 0x02C => some .lrcSum
  | 0x030 => some .lrcDin
  | 0x034 => some .lrcVal
  | 0x038 => some .chkCalc
  | 0x03C => some .chkRx
  | 0x040 => some .rxUnit
  | 0x044 => some .rxTid
  | 0x048 => some .rxPid
  | 0x04C => some .rxLen
  | _ => none

/-- What a mapped window offset selects. -/
inductive Target where
  | reg (r : Reg)
  | ibuf
  | obuf
  deriving DecidableEq, Repr

/-- The offset decode of 20_memory.md R60 and R65: `none` is unmapped. -/
def targetAt (bufSize off : Nat) : Option Target :=
  match regAt off with
  | some r => some (.reg r)
  | none =>
    if Config.ibufBase ≤ off ∧ off < Config.ibufBase + bufSize then some .ibuf
    else if Config.obufBase ≤ off ∧ off < Config.obufBase + bufSize then some .obuf
    else none

/-- The offset of a bus address within the block's window (00_scope.md R8, 20_memory.md R60); `none` is an address the
block is not selected by (entry 2). -/
def windowOffset (base addr : Nat) : Option Nat :=
  if base ≤ addr ∧ addr < base + Config.windowSize then some (addr - base) else none

/-- The target of an accepted access: size 4 and an aligned, mapped offset (R61, R65); `none` is a bus error (R66). -/
def accessTarget (bufSize size off : Nat) : Option Target :=
  if size = 4 ∧ off % 4 = 0 then targetAt bufSize off else none

end Sys2Proof.Machine
end

