-- ==== Sys2Proof/Machine/Codec.lean ====
section
/-! DEFINITION. The pure functions of the codec: hexadecimal text, CRC-16 and LRC (40_bytes_and_checksum.md R100 to R108), and
the three frame layouts (41_rtu_framer.md R130, 42_ascii_framer.md R150, 43_lenprefix_framer.md R180). -/

namespace Sys2Proof.Machine

/-- `hex_char` (R100): uppercase only. -/
def hexChar (n : BitVec 4) : Byte :=
  if n.toNat ≤ 9 then 0x30 + n.setWidth 8 else 0x41 + (n.setWidth 8 - 10)

/-- `hex_enc` (R101): the high nibble's character first. -/
def hexEnc (s : List Byte) : List Byte :=
  s.flatMap fun b => [hexChar (b.extractLsb' 4 4), hexChar (b.extractLsb' 0 4)]

/-- `hex_val` (R102): case-insensitive. -/
def hexVal (c : Byte) : Option (BitVec 4) :=
  if 0x30 ≤ c.toNat ∧ c.toNat ≤ 0x39 then some (BitVec.ofNat 4 (c.toNat - 0x30))
  else if 0x41 ≤ c.toNat ∧ c.toNat ≤ 0x46 then some (BitVec.ofNat 4 (c.toNat - 0x41 + 10))
  else if 0x61 ≤ c.toNat ∧ c.toNat ≤ 0x66 then some (BitVec.ofNat 4 (c.toNat - 0x61 + 10))
  else none

/-- How hexadecimal text can fail (R103). -/
inductive HexError where
  | odd
  | nonhex
  deriving DecidableEq, Repr

/-- The bytes of pairs of hex digits; `none` when some character is no hex digit. -/
def hexPairs : List Byte → Option (List Byte)
  | [] => some []
  | [_] => none
  | h :: l :: t =>
    match hexVal h, hexVal l, hexPairs t with
    | some hi, some lo, some r => some ((hi ++ lo) :: r)
    | _, _, _ => none

/-- `hex_dec` (R103): the odd-length test comes before the character scan. -/
def hexDec (t : List Byte) : Except HexError (List Byte) :=
  if t.length % 2 = 1 then .error .odd
  else match hexPairs t with
    | some d => .ok d
    | none => .error .nonhex

/-- The STATUS.DET detail of a hex failure (42_ascii_framer.md R152). -/
def hexErrorDet : HexError → ErrDet
  | .odd => .odd
  | .nonhex => .nonhex

/-- One of the eight iterations of `crc_step` (R104): the low bit is tested before the shift. -/
def crcShift (acc : Half) : Half :=
  if acc.getLsbD 0 then (acc >>> 1) ^^^ 0xA001 else acc >>> 1

/-- `crcShift` repeated. -/
def crcShifts : Nat → Half → Half
  | 0, acc => acc
  | n + 1, acc => crcShifts n (crcShift acc)

/-- `crc_step` (R104). -/
def crcStep (acc : Half) (b : Byte) : Half := crcShifts 8 (acc ^^^ b.setWidth 16)

/-- `crc16` (R105). -/
def crc16 (s : List Byte) : Half := s.foldl crcStep 0xFFFF

/-- `lrc_sum` (R107): the byte sum modulo 256. -/
def lrcSum (s : List Byte) : Byte := s.foldl (· + ·) 0

/-- The two's complement modulo 256 of a sum, `(256 - sum) mod 256` (R108, R118). -/
def lrcOfSum (sum : Byte) : Byte := BitVec.ofNat 8 (256 - sum.toNat)

/-- `lrc` (R108). -/
def lrc (s : List Byte) : Byte := lrcOfSum (lrcSum s)

/-- The start marker `:` of an ASCII frame (42_ascii_framer.md R153). -/
def markStart : Byte := 0x3A
/-- CR (R153). -/
def markCr : Byte := 0x0D
/-- LF (R153). -/
def markLf : Byte := 0x0A

/-- `rtu(u, p)` (41_rtu_framer.md R130). -/
def rtuFrame (u : Byte) (p : List Byte) : List Byte := (u :: p) ++ le16 (crc16 (u :: p))

/-- `asc(u, p)` (42_ascii_framer.md R150). -/
def ascFrame (u : Byte) (p : List Byte) : List Byte :=
  [markStart] ++ hexEnc ((u :: p) ++ [lrc (u :: p)]) ++ [markCr, markLf]

/-- `lpf(x, u, p)` (43_lenprefix_framer.md R180). -/
def lpfFrame (x : Half) (u : Byte) (p : List Byte) : List Byte :=
  be16 x ++ [0x00, 0x00] ++ be16 (BitVec.ofNat 16 (p.length + 1)) ++ [u] ++ p

end Sys2Proof.Machine
end

