-- ==== Sys2Proof/Machine/Flags.lean ====
section
/-! DEFINITION. The status and control words: field codes (60_exceptions.md R221, R222), STATUS (10_state.md R30), CTRL
(44_control.md R207, R208), write-1-to-clear (R209) and irq (10_state.md R50). -/

namespace Sys2Proof.Machine

/-- The code of an error category (60_exceptions.md R221). -/
def errCode : ErrCat → BitVec 3
  | .none => 0
  | .length => 1
  | .framing => 2
  | .checksum => 3
  | .illegal => 4
  | .range => 5

/-- The code of an error detail (60_exceptions.md R222). -/
def detCode : ErrDet → BitVec 4
  | .none => 0
  | .short => 1
  | .start => 2
  | .endMark => 3
  | .odd => 4
  | .nonhex => 5
  | .lenfield => 6
  | .crc => 7
  | .lrc => 8
  | .opcode => 9
  | .rsvbits => 10
  | .inlen => 11
  | .outlen => 12

/-- The category of each detail (60_exceptions.md R222). -/
def detCategory : ErrDet → ErrCat
  | .none => .none
  | .short => .length
  | .start | .endMark | .odd | .nonhex | .lenfield => .framing
  | .crc | .lrc => .checksum
  | .opcode | .rsvbits => .illegal
  | .inlen | .outlen => .range

/-- The STATUS word (10_state.md R30): LASTOP [15:12], DET [11:8], ERR [6:4], WERR [2], DONE [1], BUSY [0]. -/
def State.statusWord (s : State) : Word :=
  0#16 ++ s.lastop ++ detCode s.det ++ 0#1 ++ errCode s.err ++ 0#1 ++
    BitVec.ofBool s.werr ++ BitVec.ofBool s.done ++ BitVec.ofBool s.busy

/-- The CTRL word, `zext_32(TIDINC*4 + IE*2)` (44_control.md R207). -/
def State.ctrlWord (s : State) : Word :=
  0#29 ++ BitVec.ofBool s.tidinc ++ BitVec.ofBool s.ie ++ 0#1

/-- A write to CTRL with SRST = 0 (44_control.md R208). -/
def State.setCtrl (s : State) (v : Word) : State :=
  { s with ie := v.getLsbD 1, tidinc := v.getLsbD 2 }

/-- A write to STATUS (44_control.md R209): write-1-to-clear of DONE and WERR. -/
def State.clearFlags (s : State) (v : Word) : State :=
  { s with done := s.done && !v.getLsbD 1, werr := s.werr && !v.getLsbD 2 }

/-- The interrupt output (10_state.md R50). -/
def State.irq (s : State) : Bool := s.done && s.ie

end Sys2Proof.Machine
end

