-- ==== Sys2Proof/Machine/Checksum.lean ====
section
/-! DEFINITION. The checksum family: CRC_INIT, CRC_BUF, LRC_INIT, LRC_BUF and the port writes CRC_DIN, LRC_DIN
(40_bytes_and_checksum.md R112 to R118). -/

namespace Sys2Proof.Machine

/-- The completion step of a command whose body has run (44_control.md R203). -/
def completion (r : BodyResult) : Host.Outcome State Fault Refusal := .next (complete r)

/-- Feed one byte to the CRC engine (R112). -/
def State.feedCrc (s : State) (b : Byte) : State := { s with crcAcc := crcStep s.crcAcc b }

/-- Feed one byte to the LRC engine (R113). -/
def State.feedLrc (s : State) (b : Byte) : State := { s with lrcSum := s.lrcSum + b }

/-- LRC_VAL (R118, 10_state.md R40). -/
def State.lrcVal (s : State) : Byte := lrcOfSum s.lrcSum

/-- Body of CRC_INIT (R114). -/
def crcInitBody (s : State) : BodyResult := .ok { s with crcAcc := 0xFFFF }

/-- Body of CRC_BUF (R115). -/
def crcBufBody (s : State) : BodyResult :=
  if s.bufSize < s.inCount then raiseErr s .range .inlen
  else .ok { s with crcAcc := s.input.foldl crcStep s.crcAcc }

/-- Body of LRC_INIT (R116). -/
def lrcInitBody (s : State) : BodyResult := .ok { s with lrcSum := 0 }

/-- Body of LRC_BUF (R117). -/
def lrcBufBody (s : State) : BodyResult :=
  if s.bufSize < s.inCount then raiseErr s .range .inlen
  else .ok { s with lrcSum := s.lrcSum + lrcSum s.input }

/-- CRC_INIT (R114). -/
def execCrcInit (s : State) : Host.Outcome State Fault Refusal := completion (crcInitBody s)

/-- CRC_BUF (R115). -/
def execCrcBuf (s : State) : Host.Outcome State Fault Refusal := completion (crcBufBody s)

/-- LRC_INIT (R116). -/
def execLrcInit (s : State) : Host.Outcome State Fault Refusal := completion (lrcInitBody s)

/-- LRC_BUF (R117). -/
def execLrcBuf (s : State) : Host.Outcome State Fault Refusal := completion (lrcBufBody s)

/-- Port write CRC_DIN (R112), dropped while a command runs (70_reset_and_hazards.md R262, R267). -/
def execCrcDin (byte : Byte) (s : State) : Host.Outcome State Fault Refusal :=
  .next (if s.busy then s.dropWrite else s.feedCrc byte)

/-- Port write LRC_DIN (R113), dropped while a command runs (70_reset_and_hazards.md R262, R267). -/
def execLrcDin (byte : Byte) (s : State) : Host.Outcome State Fault Refusal :=
  .next (if s.busy then s.dropWrite else s.feedLrc byte)

end Sys2Proof.Machine
end

