-- ==== Sys2Proof/Machine/Ascii.lean ====
section
/-! DEFINITION. The ASCII family: ASC_BUILD and ASC_PARSE (42_ascii_framer.md R151, R152). -/

namespace Sys2Proof.Machine

/-- Body of ASC_BUILD (R151). -/
def ascBuildBody (s : State) : BodyResult :=
  if s.bufSize < s.inCount then raiseErr s .range .inlen
  else if s.bufSize < 2 * s.inCount + 7 then raiseErr s .range .outlen
  else .ok { s.putOutput (ascFrame s.unit s.input) with chkCalc := (lrc (s.unit :: s.input)).setWidth 16 }

/-- The check of ASC_PARSE on the decoded bytes `d`, `len(d) >= 2` (R152): CHK_CALC and CHK_RX are written before
the comparison, and are kept by a CHECKSUM error (60_exceptions.md R226). -/
def ascCheck (s : State) (d : List Byte) : BodyResult :=
  let m := d.length
  let c := lrc (slice d 0 (m - 1))
  let rx := d.getD (m - 1) 0
  if c = rx then
    .ok { s.putOutput (slice d 1 (m - 1)) with
      chkCalc := c.setWidth 16, chkRx := rx.setWidth 16, rxUnit := d.getD 0 0 }
  else raiseErr { s with chkCalc := c.setWidth 16, chkRx := rx.setWidth 16 } .checksum .lrc

/-- Body of ASC_PARSE (R152), the checks in the order of the rule. -/
def ascParseBody (s : State) : BodyResult :=
  let n := s.inCount
  if s.bufSize < n then raiseErr s .range .inlen
  else if n < 7 then raiseErr s .length .short
  else if s.ibufAt 0 ≠ markStart then raiseErr s .framing .start
  else if s.ibufAt (n - 2) ≠ markCr ∨ s.ibufAt (n - 1) ≠ markLf then raiseErr s .framing .endMark
  else match hexDec (s.ibufSlice 1 (n - 2)) with
    | .error e => raiseErr s .framing (hexErrorDet e)
    | .ok d => ascCheck s d

/-- ASC_BUILD (R151). -/
def execAscBuild (s : State) : Host.Outcome State Fault Refusal := completion (ascBuildBody s)

/-- ASC_PARSE (R152). -/
def execAscParse (s : State) : Host.Outcome State Fault Refusal := completion (ascParseBody s)

end Sys2Proof.Machine
end

