-- ==== Sys2Proof/Machine/Control.lean ====
section
/-! DEFINITION. NOP and the illegal commands (44_control.md R205, R206). -/

namespace Sys2Proof.Machine

/-- An illegal command by opcode (R206): `raise Err(ILLEGAL, OPCODE)`. -/
def illegalOpcode (s : State) : Host.Outcome State Fault Refusal :=
  completion (raiseErr s .illegal .opcode)

/-- NOP (R205). -/
def execNop (s : State) : Host.Outcome State Fault Refusal := completion (.ok s)

/-- Reserved opcode 0xB (30_encoding.md R85). -/
def execReservedB (s : State) : Host.Outcome State Fault Refusal := illegalOpcode s

/-- Reserved opcode 0xC (R85). -/
def execReservedC (s : State) : Host.Outcome State Fault Refusal := illegalOpcode s

/-- Reserved opcode 0xD (R85). -/
def execReservedD (s : State) : Host.Outcome State Fault Refusal := illegalOpcode s

/-- Reserved opcode 0xE (R85). -/
def execReservedE (s : State) : Host.Outcome State Fault Refusal := illegalOpcode s

/-- Reserved opcode 0xF (R85). -/
def execReservedF (s : State) : Host.Outcome State Fault Refusal := illegalOpcode s

/-- A command with reserved bits set, whatever its OP (30_encoding.md R84, R206). -/
def execIllegalRsvbits (s : State) : Host.Outcome State Fault Refusal :=
  completion (raiseErr s .illegal .rsvbits)

end Sys2Proof.Machine
end

