-- ==== Sys2Proof/Machine/LenPrefix.lean ====
section
/-! DEFINITION. The length-prefixed family: LPF_BUILD and LPF_PARSE (43_lenprefix_framer.md R181, R182, R184). -/

namespace Sys2Proof.Machine

/-- The transaction id after a successful LPF_BUILD (R184). -/
def State.nextTid (s : State) : Half := if s.tidinc then s.tid + 1 else s.tid

/-- Body of LPF_BUILD (R181): TID is placed as it stands, then incremented under TIDINC. -/
def lpfBuildBody (s : State) : BodyResult :=
  if s.bufSize < s.inCount then raiseErr s .range .inlen
  else if s.bufSize < s.inCount + 7 then raiseErr s .range .outlen
  else .ok { s.putOutput (lpfFrame s.tid s.unit s.input) with tid := s.nextTid }

/-- Body of LPF_PARSE (R182). `len + 6` is computed without wrap. -/
def lpfParseBody (s : State) : BodyResult :=
  let n := s.inCount
  let len := s.ibufHalf 4
  if s.bufSize < n then raiseErr s .range .inlen
  else if n < 8 then raiseErr s .length .short
  else if n ≠ len.toNat + 6 then raiseErr s .framing .lenfield
  else .ok { s.putOutput (s.ibufSlice 7 (7 + (len.toNat - 1))) with
      rxTid := s.ibufHalf 0, rxPid := s.ibufHalf 2, rxLen := len, rxUnit := s.ibufAt 6 }

/-- LPF_BUILD (R181). -/
def execLpfBuild (s : State) : Host.Outcome State Fault Refusal := completion (lpfBuildBody s)

/-- LPF_PARSE (R182). -/
def execLpfParse (s : State) : Host.Outcome State Fault Refusal := completion (lpfParseBody s)

end Sys2Proof.Machine
end

