-- ==== Sys2Proof/Machine/Rtu.lean ====
section
/-! DEFINITION. The RTU family: RTU_BUILD and RTU_PARSE (41_rtu_framer.md R131, R132). -/

namespace Sys2Proof.Machine

/-- Body of RTU_BUILD (R131). -/
def rtuBuildBody (s : State) : BodyResult :=
  if s.bufSize < s.inCount then raiseErr s .range .inlen
  else if s.bufSize < s.inCount + 3 then raiseErr s .range .outlen
  else .ok { s.putOutput (rtuFrame s.unit s.input) with chkCalc := crc16 (s.unit :: s.input) }

/-- The check of RTU_PARSE on a frame of `n` bytes, `n >= 5` (R132): CHK_CALC and CHK_RX are written before the
comparison, and are kept by a CHECKSUM error (60_exceptions.md R226). -/
def rtuCheck (s : State) (n : Nat) : BodyResult :=
  let c := crc16 (s.ibufSlice 0 (n - 2))
  let rx := half (s.ibufAt (n - 1)) (s.ibufAt (n - 2))
  if c = rx then
    .ok { s.putOutput (s.ibufSlice 1 (n - 2)) with chkCalc := c, chkRx := rx, rxUnit := s.ibufAt 0 }
  else raiseErr { s with chkCalc := c, chkRx := rx } .checksum .crc

/-- Body of RTU_PARSE (R132). -/
def rtuParseBody (s : State) : BodyResult :=
  if s.bufSize < s.inCount then raiseErr s .range .inlen
  else if s.inCount < 5 then raiseErr s .length .short
  else rtuCheck s s.inCount

/-- RTU_BUILD (R131). -/
def execRtuBuild (s : State) : Host.Outcome State Fault Refusal := completion (rtuBuildBody s)

/-- RTU_PARSE (R132). -/
def execRtuParse (s : State) : Host.Outcome State Fault Refusal := completion (rtuParseBody s)

end Sys2Proof.Machine
end

