-- ==== Sys2Proof/Syntax.lean ====
section
/-! DEFINITION. The instructions of the XMF block: one constructor per row of spec/opcode_table.json (30_encoding.md R80 to R87). -/

namespace Sys2Proof

/-- The commands (format CMD, R80) and the two port writes (format PORT, R81). -/
inductive Instr where
  /-- NOP, OP = 0x0 (44_control.md R205). -/
  | nop
  /-- CRC_INIT, OP = 0x1 (40_bytes_and_checksum.md R114). -/
  | crcInit
  /-- CRC_BUF, OP = 0x2 (R115). -/
  | crcBuf
  /-- LRC_INIT, OP = 0x3 (R116). -/
  | lrcInit
  /-- LRC_BUF, OP = 0x4 (R117). -/
  | lrcBuf
  /-- RTU_BUILD, OP = 0x5 (41_rtu_framer.md R131). -/
  | rtuBuild
  /-- RTU_PARSE, OP = 0x6 (R132). -/
  | rtuParse
  /-- ASC_BUILD, OP = 0x7 (42_ascii_framer.md R151). -/
  | ascBuild
  /-- ASC_PARSE, OP = 0x8 (R152). -/
  | ascParse
  /-- LPF_BUILD, OP = 0x9 (43_lenprefix_framer.md R181). -/
  | lpfBuild
  /-- LPF_PARSE, OP = 0xA (R182). -/
  | lpfParse
  /-- Reserved opcode 0xB (30_encoding.md R85). -/
  | reservedB
  /-- Reserved opcode 0xC (R85). -/
  | reservedC
  /-- Reserved opcode 0xD (R85). -/
  | reservedD
  /-- Reserved opcode 0xE (R85). -/
  | reservedE
  /-- Reserved opcode 0xF (R85). -/
  | reservedF
  /-- A CMD value with some bit of [31:4] set (30_encoding.md R84): those 28 bits and OP. -/
  | illegalRsvbits (rsv : BitVec 28) (op : BitVec 4)
  /-- Port write to CRC_DIN (R81, 40_bytes_and_checksum.md R112): the byte, and the 24 bits that are ignored. -/
  | crcDin (byte : Byte) (ignored : BitVec 24)
  /-- Port write to LRC_DIN (R81, 40_bytes_and_checksum.md R113). -/
  | lrcDin (byte : Byte) (ignored : BitVec 24)
  deriving DecidableEq, Repr

end Sys2Proof
end

