-- ==== Sys2Proof/Machine/Dispatch.lean ====
section
/-! DEFINITION. One arm per instruction. A command's arm is its completion step (44_control.md R203); a port write's
arm is the whole host write (30_encoding.md R81). -/

namespace Sys2Proof.Machine

def exec (i : Instr) (s : State) : Host.Outcome State Fault Refusal :=
  match i with
  | .nop => Sys2Proof.Machine.execNop s
  | .crcInit => Sys2Proof.Machine.execCrcInit s
  | .crcBuf => Sys2Proof.Machine.execCrcBuf s
  | .lrcInit => Sys2Proof.Machine.execLrcInit s
  | .lrcBuf => Sys2Proof.Machine.execLrcBuf s
  | .rtuBuild => Sys2Proof.Machine.execRtuBuild s
  | .rtuParse => Sys2Proof.Machine.execRtuParse s
  | .ascBuild => Sys2Proof.Machine.execAscBuild s
  | .ascParse => Sys2Proof.Machine.execAscParse s
  | .lpfBuild => Sys2Proof.Machine.execLpfBuild s
  | .lpfParse => Sys2Proof.Machine.execLpfParse s
  | .reservedB => Sys2Proof.Machine.execReservedB s
  | .reservedC => Sys2Proof.Machine.execReservedC s
  | .reservedD => Sys2Proof.Machine.execReservedD s
  | .reservedE => Sys2Proof.Machine.execReservedE s
  | .reservedF => Sys2Proof.Machine.execReservedF s
  | .illegalRsvbits _ _ => Sys2Proof.Machine.execIllegalRsvbits s
  | .crcDin byte _ => Sys2Proof.Machine.execCrcDin byte s
  | .lrcDin byte _ => Sys2Proof.Machine.execLrcDin byte s

end Sys2Proof.Machine
end

