-- ==== Sys2Proof/WellFormed.lean ====
section
/-! DEFINITION. Which instruction terms stand for an encoding (30_encoding.md R84). -/

namespace Sys2Proof

/-- A term is well formed when some word encodes it. The only check: an illegal command by reserved bits has one
of bits [31:4] set (R84); with none set the word is one of the sixteen other commands. -/
def wellFormed : Instr → Bool
  | .illegalRsvbits rsv _ => rsv != 0
  | .nop | .crcInit | .crcBuf | .lrcInit | .lrcBuf | .rtuBuild | .rtuParse | .ascBuild | .ascParse
  | .lpfBuild | .lpfParse | .reservedB | .reservedC | .reservedD | .reservedE | .reservedF => true
  | .crcDin _ _ | .lrcDin _ _ => true

end Sys2Proof
end

