-- ==== Sys2Proof/Decode.lean ====
section
/-! DEFINITION. Decoding and encoding (30_encoding.md R80 to R87). An instruction reaches the block as a host write: the
window offset selects the format (CMD at 0x010, PORT at 0x028 and 0x030), the data is the word. -/

namespace Sys2Proof

/-- An instruction as the host writes it: window offset and 32-bit data (R80, R81, R89). -/
structure Encoding where
  offset : Nat
  data   : Word
  deriving DecidableEq, Repr

/-- Why a host write is no instruction. -/
inductive DecodeError where
  /-- The offset is none of CMD, CRC_DIN and LRC_DIN. -/
  | notAnInstruction (offset : Nat)
  deriving DecidableEq, Repr

/-- Offset of CMD (10_state.md R31). -/
def cmdOffset : Nat := 0x010
/-- Offset of CRC_DIN (10_state.md R37). -/
def crcDinOffset : Nat := 0x028
/-- Offset of LRC_DIN (10_state.md R39). -/
def lrcDinOffset : Nat := 0x030

/-- The opcode map of R82 and R85 for a word whose bits [31:4] are 0. -/
def decodeOp (op : BitVec 4) : Instr :=
  match op.toNat with
  | 0x0 => .nop
  | 0x1 => .crcInit
  | 0x2 => .crcBuf
  | 0x3 => .lrcInit
  | 0x4 => .lrcBuf
  | 0x5 => .rtuBuild
  | 0x6 => .rtuParse
  | 0x7 => .ascBuild
  | 0x8 => .ascParse
  | 0x9 => .lpfBuild
  | 0xA => .lpfParse
  | 0xB => .reservedB
  | 0xC => .reservedC
  | 0xD => .reservedD
  | 0xE => .reservedE
  | _   => .reservedF

/-- The decoder of R87, total on every 32-bit value: reserved bits first, then OP. -/
def decodeCommand (v : Word) : Instr :=
  if v.extractLsb' 4 28 = 0 then decodeOp (v.extractLsb' 0 4)
  else .illegalRsvbits (v.extractLsb' 4 28) (v.extractLsb' 0 4)

/-- A write to CRC_DIN (R81). -/
def decodeCrcDin (v : Word) : Instr := .crcDin (v.extractLsb' 0 8) (v.extractLsb' 8 24)

/-- A write to LRC_DIN (R81). -/
def decodeLrcDin (v : Word) : Instr := .lrcDin (v.extractLsb' 0 8) (v.extractLsb' 8 24)

/-- Decode a host write: total, rejecting by name a write that is no instruction. -/
def decode (e : Encoding) : Except DecodeError Instr :=
  if e.offset = cmdOffset then .ok (decodeCommand e.data)
  else if e.offset = crcDinOffset then .ok (decodeCrcDin e.data)
  else if e.offset = lrcDinOffset then .ok (decodeLrcDin e.data)
  else .error (.notAnInstruction e.offset)

/-- A CMD word with reserved bits 0 (R80, R82). -/
def encodeOp (op : Word) : Encoding := { offset := cmdOffset, data := op }

/-- The word of an instruction, from the tables of R80, R81 and R82. -/
def encode : Instr → Encoding
  | .nop => encodeOp 0x0
  | .crcInit => encodeOp 0x1
  | .crcBuf => encodeOp 0x2
  | .lrcInit => encodeOp 0x3
  | .lrcBuf => encodeOp 0x4
  | .rtuBuild => encodeOp 0x5
  | .rtuParse => encodeOp 0x6
  | .ascBuild => encodeOp 0x7
  | .ascParse => encodeOp 0x8
  | .lpfBuild => encodeOp 0x9
  | .lpfParse => encodeOp 0xA
  | .reservedB => encodeOp 0xB
  | .reservedC => encodeOp 0xC
  | .reservedD => encodeOp 0xD
  | .reservedE => encodeOp 0xE
  | .reservedF => encodeOp 0xF
  | .illegalRsvbits rsv op => { offset := cmdOffset, data := rsv ++ op }
  | .crcDin byte ignored => { offset := crcDinOffset, data := ignored ++ byte }
  | .lrcDin byte ignored => { offset := lrcDinOffset, data := ignored ++ byte }

/-- The register a row of opcode_table.json is written to, from the row's size alone: a CMD row has 32 bits, a PORT row
has 8. The table's number holds no offset, so an 8-bit row is read as CRC_DIN. DESIGN CHOICE (entry 11), safe:
it is used by no step. -/
def tableOffset (nbits : Nat) : Nat := if nbits = 8 then crcDinOffset else cmdOffset

/-- The instruction the decoder reads from a row's bits, numbered as spec/opcode_table.json numbers them. -/
def decodeTableWord (nbits w : Nat) : Option Instr :=
  match decode { offset := tableOffset nbits, data := BitVec.ofNat 32 w } with
  | .ok i => some i
  | .error _ => none

end Sys2Proof
end

