-- ==== Sys2Proof/Machine/Bus.lean ====
section
/-! DEFINITION. Host accesses to the register window: reads (20_memory.md R63, 70_reset_and_hazards.md R263), writes (R64,
R262), and what a host access makes the machine do. -/

namespace Sys2Proof.Machine

/-- What one turn makes the machine do: run a decoded instruction, or end the step at once. -/
inductive Action where
  | run (i : Instr) (s : State)
  | answer (o : Host.Outcome State Fault Refusal)

/-- The value of a register for a host read while BUSY = 0 (10_state.md R26 to R46): reserved bits and write-only
registers read 0. -/
def State.readReg (s : State) : Reg → Word
  | .id => Config.idValue
  | .param => s.param.setWidth 32
  | .ctrl => s.ctrlWord
  | .status => s.statusWord
  | .cmd => 0
  | .inLen => s.inLen.setWidth 32
  | .outLen => s.outLen.setWidth 32
  | .unit => s.unit.setWidth 32
  | .tid => s.tid.setWidth 32
  | .crcAcc => s.crcAcc.setWidth 32
  | .crcDin => 0
  | .lrcSum => s.lrcSum.setWidth 32
  | .lrcDin => 0
  | .lrcVal => s.lrcVal.setWidth 32
  | .chkCalc => s.chkCalc.setWidth 32
  | .chkRx => s.chkRx.setWidth 32
  | .rxUnit => s.rxUnit.setWidth 32
  | .rxTid => s.rxTid.setWidth 32
  | .rxPid => s.rxPid.setWidth 32
  | .rxLen => s.rxLen.setWidth 32

/-- The registers that read their value while a command runs (70_reset_and_hazards.md R263). -/
def readableWhileBusy : Target → Bool
  | .reg .id | .reg .param | .reg .ctrl | .reg .status => true
  | .reg .cmd | .reg .inLen | .reg .outLen | .reg .unit | .reg .tid | .reg .crcAcc | .reg .crcDin | .reg .lrcSum
  | .reg .lrcDin | .reg .lrcVal | .reg .chkCalc | .reg .chkRx | .reg .rxUnit | .reg .rxTid | .reg .rxPid
  | .reg .rxLen | .ibuf | .obuf => false

/-- The value of a mapped word while BUSY = 0 (R63). -/
def State.readTarget (s : State) (t : Target) (off : Nat) : Word :=
  match t with
  | .reg r => s.readReg r
  | .ibuf => s.readWord off
  | .obuf => s.readWord off

/-- A host read of a mapped word: its value (R63), or, while a command runs and for any word but ID, PARAM, CTRL and
STATUS, a free value (R263, U3, entry 5). The block's state does not change. -/
def hostRead (t : Target) (off : Nat) (s : State) : State :=
  if s.busy && !readableWhileBusy t then
    { s with reply := some (Config.busyReadData s.busyReads), busyReads := s.busyReads + 1 }
  else { s with reply := some (s.readTarget t off) }

/-- The write action of a register while BUSY = 0 (10_state.md R26 to R46, 44_control.md R202, R208, R209, R210;
40_bytes_and_checksum.md R110, R111). A write to a read-only register is ignored (R26). -/
def State.writeReg (s : State) (r : Reg) (v : Word) : State :=
  match r with
  | .ctrl => if v.getLsbD 0 then s.softReset else s.setCtrl v
  | .status => s.clearFlags v
  | .cmd => s.accept v
  | .inLen => { s with inLen := v.extractLsb' 0 16 }
  | .unit => { s with unit := v.extractLsb' 0 8 }
  | .tid => { s with tid := v.extractLsb' 0 16 }
  | .crcAcc => { s with crcAcc := v.extractLsb' 0 16 }
  | .crcDin => s.feedCrc (v.extractLsb' 0 8)
  | .lrcSum => { s with lrcSum := v.extractLsb' 0 8 }
  | .lrcDin => s.feedLrc (v.extractLsb' 0 8)
  | .id | .param | .outLen | .lrcVal | .chkCalc | .chkRx | .rxUnit | .rxTid | .rxPid | .rxLen => s

/-- The write action of a mapped word while BUSY = 0 (R64): an IBUF word takes its four bytes, an OBUF word ignores
the write. -/
def State.writeTarget (s : State) (t : Target) (off : Nat) (v : Word) : State :=
  match t with
  | .reg r => s.writeReg r v
  | .ibuf => s.storeBytes off (unpackWord v)
  | .obuf => s

/-- Whether a write requests a soft reset (44_control.md R210). -/
def isSoftReset (t : Target) (v : Word) : Bool := t == .reg .ctrl && v.getLsbD 0

/-- A host write of a mapped word: a soft reset whether or not a command runs (R210), dropped while a command runs
(R262), otherwise the write action. -/
def hostWrite (t : Target) (off : Nat) (v : Word) (s : State) : State :=
  if isSoftReset t v then s.softReset
  else if s.busy then s.dropWrite
  else s.writeTarget t off v

/-- A host access to a target: a port write runs its decoded instruction, every other access is answered here. -/
def accessTargetAction (t : Target) (off : Nat) (op : AccessOp) (s : State) : Action :=
  match op, t with
  | .read, _ => .answer (.next (hostRead t off s))
  | .write v, .reg .crcDin => .run (decodeCrcDin v) s
  | .write v, .reg .lrcDin => .run (decodeLrcDin v) s
  | .write v, _ => .answer (.next (hostWrite t off v s))

/-- One host access (10_state.md R21): outside the window or while reset is asserted the block does not answer
(entries 2 and 6); a refused access is a bus error (20_memory.md R66). -/
def hostAccess (a : Access) (s : State) : Action :=
  match windowOffset s.base a.addr with
  | none => .answer (.next s)
  | some off =>
    if s.resetIn then .answer (.next s)
    else match accessTarget s.bufSize a.size off with
      | none => .answer (.fault (.busError off))
      | some t => accessTargetAction t off a.op s

end Sys2Proof.Machine
end

