-- ==== Sys2Proof/Machine/Turns.lean ====
section
/-! DEFINITION. Which agent moves next and what its move is (10_state.md R20 to R22, 70_reset_and_hazards.md R250). -/

namespace Sys2Proof.Machine

/-- The engine's completion step is enabled exactly when STATUS.BUSY = 1 (10_state.md R22), and not while reset is
asserted (60_exceptions.md R230). -/
def State.engineEnabled (s : State) : Bool := s.busy && !s.resetIn

/-- The engine's move: if enabled, run the command decoded from PENDING (44_control.md R203). -/
def engineAction (s : State) : Action :=
  if s.engineEnabled then .run (decodeCommand s.pending) s else .answer (.next s)

/-- The reset input is asserted: the registers take their reset values at once (entry 6). -/
def assertReset (s : State) : State := { s.powerOnReset with resetIn := true }

/-- The reset input is released: the state is that of R250. Releasing an input that is not asserted changes nothing. -/
def releaseReset (s : State) : State :=
  if s.resetIn then { s.powerOnReset with resetIn := false } else s

/-- The move of one turn, the turn itself already taken off `turns`. -/
def turnAction (t : Turn) (s : State) : Action :=
  match t with
  | .host a => hostAccess a { s with reply := none }
  | .engine => engineAction s
  | .resetAssert => .answer (.next (assertReset s))
  | .resetRelease => .answer (.next (releaseReset s))

/-- What the next step does: the oldest turn, or the engine's move when no turn is left (weak fairness, R22). -/
def nextAction (s : State) : Action :=
  match s.turns with
  | [] => engineAction s
  | t :: ts => turnAction t { s with turns := ts }

/-- Place a CMD word so that the next step runs it: its acceptance (44_control.md R202) has happened and the next turn
is the engine's. -/
def State.placeCommand (s : State) (v : Word) : State :=
  { s.accept v with resetIn := false, turns := .engine :: s.turns }

/-- Place a port write so that the next step performs it. -/
def State.placePort (s : State) (off : Nat) (v : Word) : State :=
  { s with resetIn := false, turns := .host { addr := s.base + off, size := 4, op := .write v } :: s.turns }

end Sys2Proof.Machine
end

