-- ==== Sys2Proof/Machine/Step.lean ====
section
/-! DEFINITION. One step of the machine. -/

namespace Sys2Proof.Machine

/-- Perform an action: an instruction runs, an answer stands. -/
def runAction : Action → Host.Outcome State Fault Refusal
  | .run i s => exec i s
  | .answer o => o

/-- One step: the move of the next agent (10_state.md R20 to R22). -/
def step (s : State) : Host.Outcome State Fault Refusal := runAction (nextAction s)

/-- `s` with the instruction of an opcode-table row placed so that the next step runs exactly it (entry 10). -/
def State.withFetchWord (s : State) (nbits w : Nat) : State :=
  if nbits = 8 then s.placePort (tableOffset nbits) (BitVec.ofNat 32 w)
  else s.placeCommand (BitVec.ofNat 32 w)

end Sys2Proof.Machine
end

