-- ==== Sys2Proof/Machine/HostProgram.lean ====
section
/-! DEFINITION. The host's notation for programs (30_encoding.md R88 to R90): lines, their encoding as triples, and the
pseudo-instructions, as turns of the host. Host control flow (IF ... GOTO) is host computation and changes nothing in the
block (R88, 44_control.md R212). -/

namespace Sys2Proof.Machine

/-- One line of a host program that is a bus access (R88). -/
inductive HostLine where
  | wr (off : Nat) (value : Word)
  | rd (off : Nat)
  deriving DecidableEq, Repr

/-- Direction of a triple (R89). -/
inductive Dir where
  | w
  | r
  deriving DecidableEq, Repr

/-- The encoding of a host step (R89): a 14-bit offset, and the data written (for `R`, the value returned). -/
structure Triple where
  dir  : Dir
  off  : BitVec 14
  data : Word
  deriving DecidableEq, Repr

/-- The triple of a line; `returned` is the value a read returned (R89). -/
def lineTriple (l : HostLine) (returned : Word) : Triple :=
  match l with
  | .wr off v => { dir := .w, off := BitVec.ofNat 14 off, data := v }
  | .rd off => { dir := .r, off := BitVec.ofNat 14 off, data := returned }

/-- The line of a triple (R89). -/
def tripleLine (t : Triple) : HostLine :=
  match t.dir with
  | .w => .wr t.off.toNat t.data
  | .r => .rd t.off.toNat

/-- A line as a turn of the host: one 32-bit access at BASE + off (R15, R88). -/
def lineTurn (base : Nat) (l : HostLine) : Turn :=
  match l with
  | .wr off v => .host { addr := base + off, size := 4, op := .write v }
  | .rd off => .host { addr := base + off, size := 4, op := .read }

/-- `CMD <mnemonic>` (R90): write the command's word to its register. -/
def cmdLine (i : Instr) : HostLine := .wr (encode i).offset (encode i).data

/-- One `RD STATUS` of `POLL` (R90). -/
def pollRead : HostLine := .rd (regOffset .status)

/-- The word of up to four bytes, missing bytes taken as 0 (R90). -/
def wordOfBytes (s : List Byte) : Word :=
  packWord (s.getD 0 0) (s.getD 1 0) (s.getD 2 0) (s.getD 3 0)

/-- `WBUF <k>, [bytes]` (R90): `ceil(n/4)` writes from IBUF word `k` on. -/
def wbufLines (k : Nat) (s : List Byte) : List HostLine :=
  (List.range ((s.length + 3) / 4)).map fun i =>
    .wr (Config.ibufBase + 4 * (k + i)) (wordOfBytes (s.drop (4 * i)))

/-- The reads of `RBUF <k>, <n>` (R90): `ceil(n/4)` reads from OBUF word `k` on. -/
def rbufLines (k n : Nat) : List HostLine :=
  (List.range ((n + 3) / 4)).map fun i => .rd (Config.obufBase + 4 * (k + i))

/-- The bytes `RBUF` binds to its name: the first `n` bytes of the words read, unpacked (R90, 20_memory.md R62). -/
def rbufBytes (n : Nat) (words : List Word) : List Byte := (words.flatMap unpackWord).take n

/-- `FEED CRC, [bytes]` (R90): one write to CRC_DIN a byte. -/
def feedCrcLines (s : List Byte) : List HostLine := s.map fun b => .wr crcDinOffset (b.setWidth 32)

/-- `FEED LRC, [bytes]` (R90): one write to LRC_DIN a byte. -/
def feedLrcLines (s : List Byte) : List HostLine := s.map fun b => .wr lrcDinOffset (b.setWidth 32)

/-- `POLL` in the schedule where `k` reads come before the completion step (R90, 10_state.md R22): the reads that see
BUSY = 1, the engine's move, and the read that sees DONE = 1. -/
def pollTurns (base k : Nat) : List Turn :=
  List.replicate k (lineTurn base pollRead) ++ [.engine, lineTurn base pollRead]

end Sys2Proof.Machine
end

