-- ==== Sys2Proof/Safety.lean ====
section
/-! DEFINITION. What a legal state is, what a hazard is, and what a safe run is, in the terms claims use. -/

namespace Sys2Proof.Machine

/-- BUF_SIZE meets its constraints (00_scope.md R9). -/
abbrev State.legalBufSize (s : State) : Prop := s.bufSize % 4 = 0 ∧ 520 ≤ s.bufSize ∧ s.bufSize ≤ 4096

/-- A window offset of a byte of IBUF or OBUF (20_memory.md R60). -/
abbrev inBuffers (bufSize a : Nat) : Prop :=
  (Config.ibufBase ≤ a ∧ a < Config.ibufBase + bufSize) ∨ (Config.obufBase ≤ a ∧ a < Config.obufBase + bufSize)

/-- The invariant of the block: what every reachable state has. -/
structure State.Inv (s : State) : Prop where
  /-- The memory has its canonical form. -/
  memWf : Memory.wf s.mem
  /-- Only bytes of IBUF and OBUF are held (20_memory.md R60). -/
  memMapped : ∀ c ∈ s.mem, inBuffers s.bufSize c.1
  /-- BUF_SIZE is legal (00_scope.md R9). -/
  bufLegal : s.legalBufSize
  /-- BASE is legal (00_scope.md R8). -/
  baseLegal : s.base % Config.windowSize = 0
  /-- While a command runs, STATUS is as acceptance left it but for WERR (44_control.md R202). -/
  busyClean : s.busy = true → s.done = false ∧ s.err = .none ∧ s.det = .none ∧ s.lastop = s.pending.extractLsb' 0 4
  /-- DET belongs to ERR (60_exceptions.md R222). -/
  errMatchesDet : s.err = detCategory s.det
  /-- OUT_LEN is 0 while an error is reported (60_exceptions.md R226). -/
  errEmptiesOutput : s.err ≠ .none → s.outLen = 0
  /-- OUT_LEN counts bytes of OBUF (10_state.md R33). -/
  outLenFits : s.outLen.toNat ≤ s.bufSize
  /-- No command is in flight while reset is asserted: the model's choice (entry 6; 70_reset_and_hazards.md R250 gives the
  state at release only). -/
  resetIdle : s.resetIn = true → s.busy = false

/-- The target of a host access that the block answers, if the next turn is one. -/
def State.nextTarget (s : State) : Option (Target × AccessOp) :=
  match s.turns with
  | .host a :: _ =>
    match windowOffset s.base a.addr with
    | some off => (accessTarget s.bufSize a.size off).map fun t => (t, a.op)
    | none => none
  | _ => none

/-- The write hazard (70_reset_and_hazards.md R262): the next turn is a host write that a running command makes the
block drop. -/
def State.writeHazard (s : State) : Bool :=
  s.busy && match s.nextTarget with
    | some (t, .write v) => !isSoftReset t v
    | _ => false

/-- The result hazard (R261, R263): the next turn is a host read whose value is unspecified while a command runs. -/
def State.readHazard (s : State) : Bool :=
  s.busy && match s.nextTarget with
    | some (t, .read) => !readableWhileBusy t
    | _ => false

/-- The next turn respects the hazards of R261 to R263. -/
def State.respectsHazards (s : State) : Bool := !s.writeHazard && !s.readHazard

/-- A run of `n` steps that never stops and respects the hazards at every step. -/
def safeRun : Nat → State → Prop
  | 0, _ => True
  | n + 1, s => s.respectsHazards = true ∧ ∃ t, step s = .next t ∧ safeRun n t

/-- The instruction is a command (30_encoding.md R80), not a port write (R81). -/
def isCommand : Instr → Bool
  | .crcDin _ _ | .lrcDin _ _ => false
  | .nop | .crcInit | .crcBuf | .lrcInit | .lrcBuf | .rtuBuild | .rtuParse | .ascBuild | .ascParse
  | .lpfBuild | .lpfParse | .reservedB | .reservedC | .reservedD | .reservedE | .reservedF => true
  | .illegalRsvbits _ _ => true

/-- The instruction is one of the six frame commands (60_exceptions.md R222). -/
def isFrameCommand : Instr → Bool
  | .rtuBuild | .rtuParse | .ascBuild | .ascParse | .lpfBuild | .lpfParse => true
  | .nop | .crcInit | .crcBuf | .lrcInit | .lrcBuf | .reservedB | .reservedC | .reservedD | .reservedE
  | .reservedF => false
  | .illegalRsvbits _ _ | .crcDin _ _ | .lrcDin _ _ => false

/-- A mapped, aligned offset (20_memory.md R60, R61, R65). -/
abbrev mappedWord (bufSize off : Nat) : Prop := off % 4 = 0 ∧ (off ≤ 0x04C ∨ inBuffers bufSize off)

/-- The next turn is this line of the host, and `ts` are the turns after it. -/
abbrev State.nextLine (s : State) (l : HostLine) (ts : List Turn) : Prop := s.turns = lineTurn s.base l :: ts

/-- The bytes of IBUF that a command reads, `IBUF[0..IN_LEN)`, index by index (30_encoding.md R83). -/
def State.inputBytes (s : State) : List Byte := (List.range s.inLen.toNat).map s.ibufAt

/-- `t` holds `out` in `OBUF[0..len(out))`, and every other byte of memory as in `s` (20_memory.md R78). -/
def outputIs (s t : State) (out : List Byte) : Prop :=
  (∀ i, (hi : i < out.length) → t.obufAt i = out[i]) ∧
    ∀ a, (a < Config.obufBase ∨ Config.obufBase + out.length ≤ a) → t.readByte a = s.readByte a

/-- Run instructions one after the other, stopping at the first fault or refusal. -/
def execAll : List Instr → State → Host.Outcome State Fault Refusal
  | [], s => .next s
  | i :: is, s =>
    match exec i s with
    | .next t => execAll is t
    | .fault r => .fault r
    | .refused r => .refused r

end Sys2Proof.Machine
end

