-- ==== Sys2Proof/Certificates/Slice0/Obligations.lean ====
section
/-! DEFINITION. The statements about the XMF block, from the numbered rules of spec/. -/

namespace Sys2Proof.Machine

/-- R82 and R85 as a table: the command of each OP with bits [31:4] = 0. -/
def opcodeMap : List Instr :=
  [.nop, .crcInit, .crcBuf, .lrcInit, .lrcBuf, .rtuBuild, .rtuParse, .ascBuild, .ascParse, .lpfBuild, .lpfParse,
    .reservedB, .reservedC, .reservedD, .reservedE, .reservedF]

/-- A bit as a number. -/
def bitNat (b : Bool) : Nat := if b then 1 else 0

/-- The value each register reads, as a number, field by field from the rules R26 to R46 of 10_state.md. -/
def regValue (s : State) : Reg → Nat
  | .id => 0x584D4601
  | .param => s.param.toNat
  | .ctrl => bitNat s.tidinc * 4 + bitNat s.ie * 2
  | .status => bitNat s.busy + bitNat s.done * 2 + bitNat s.werr * 4 + (errCode s.err).toNat * 16 +
      (detCode s.det).toNat * 256 + s.lastop.toNat * 4096
  | .cmd => 0
  | .inLen => s.inLen.toNat
  | .outLen => s.outLen.toNat
  | .unit => s.unit.toNat
  | .tid => s.tid.toNat
  | .crcAcc => s.crcAcc.toNat
  | .crcDin => 0
  | .lrcSum => s.lrcSum.toNat
  | .lrcDin => 0
  | .lrcVal => (256 - s.lrcSum.toNat) % 256
  | .chkCalc => s.chkCalc.toNat
  | .chkRx => s.chkRx.toNat
  | .rxUnit => s.rxUnit.toNat
  | .rxTid => s.rxTid.toNat
  | .rxPid => s.rxPid.toNat
  | .rxLen => s.rxLen.toNat

/-- The code of the uppercase hexadecimal digit of `n`, as a number (R100). -/
def hexCode (n : Nat) : Nat := if n ≤ 9 then 0x30 + n else 0x41 + (n - 10)

/-- The state a command leaves that fails with `c` and `d` and writes nothing else (R203, R226). -/
def failedWith (s : State) (c : ErrCat) (d : ErrDet) : State :=
  { s with err := c, det := d, busy := false, done := true, outLen := 0 }

end Sys2Proof.Machine

open Sys2Proof Sys2Proof.Machine

/-! ### Encoding -/

/-- Words written out from R80 to R87 decode to the instructions they stand for. -/
def Obligations.WrittenWordsDecode : Prop :=
  decode ⟨0x010, 0x00000000#32⟩ = .ok .nop ∧
  decode ⟨0x010, 0x00000002#32⟩ = .ok .crcBuf ∧
  decode ⟨0x010, 0x00000005#32⟩ = .ok .rtuBuild ∧
  decode ⟨0x010, 0x00000008#32⟩ = .ok .ascParse ∧
  decode ⟨0x010, 0x0000000A#32⟩ = .ok .lpfParse ∧
  decode ⟨0x010, 0x0000000F#32⟩ = .ok .reservedF ∧
  decode ⟨0x010, 0x00000015#32⟩ = .ok (.illegalRsvbits 1 5) ∧
  decode ⟨0x028, 0x00000102#32⟩ = .ok (.crcDin 0x02 1) ∧
  decode ⟨0x030, 0xABCDEF01#32⟩ = .ok (.lrcDin 0x01 0xABCDEF)

/-- R80, R81, R82: decoding the encoding of any well-formed instruction gives it back. -/
def Obligations.DecodeOfEncodeIsTheInstruction : Prop :=
  ∀ i : Instr, wellFormed i = true → decode (encode i) = .ok i

/-- R80, R81, R87: every host write that decodes is the encoding of what it decodes to, which is well formed: no two
writes mean one instruction. -/
def Obligations.EncodeOfDecodeIsTheWrite : Prop :=
  ∀ (e : Encoding) (i : Instr), decode e = .ok i → encode i = e ∧ wellFormed i = true

/-- R87: the decoder is total on every 32-bit value: reserved bits first, whatever OP, then the opcode map. -/
def Obligations.CommandDecoderFollowsTheOpcodeMap : Prop :=
  ∀ v : Word,
    (v.toNat / 16 ≠ 0 → ∃ rsv op, decodeCommand v = .illegalRsvbits rsv op) ∧
    (v.toNat / 16 = 0 → opcodeMap[v.toNat]? = some (decodeCommand v))

/-! ### Steps and the command lifecycle -/

/-- A step runs the decoded command: when the engine moves and a command is in flight, the step is `exec` of what the
decoder reads from PENDING, at the state with the turn taken (R22, R203). That the engine moves when no turn is left, the
second clause, is the model's choice (entry 3). -/
def Obligations.EngineStepRunsTheDecodedCommand : Prop :=
  ∀ (s : State) (i : Instr), s.busy = true → s.resetIn = false →
    decode ⟨0x010, s.pending⟩ = .ok i →
    (∀ ts, s.turns = .engine :: ts → step s = exec i { s with turns := ts }) ∧
    (s.turns = [] → step s = exec i s)

/-- A step runs the decoded port write: a host write at a port's offset is `exec` of what the decoder reads from it, at
the state with the turn taken (R81, R112, R113). -/
def Obligations.PortWriteStepRunsTheDecodedInstruction : Prop :=
  ∀ (s : State) (ts : List Turn) (off : Nat) (v : Word) (i : Instr),
    s.resetIn = false → s.nextLine (.wr off v) ts → off ≠ 0x010 → decode ⟨off, v⟩ = .ok i →
    step s = exec i { s with turns := ts, reply := none }

/-- R202: acceptance. Every value written to CMD while BUSY = 0 is accepted, and nothing else changes. -/
def Obligations.CmdWriteIsAccepted : Prop :=
  ∀ (s : State) (ts : List Turn) (v : Word),
    s.busy = false → s.resetIn = false → s.nextLine (.wr 0x010 v) ts →
    step s = .next { s with
      turns := ts, reply := none,
      pending := v, done := false, werr := false, err := .none, det := .none,
      lastop := v.extractLsb' 0 4, busy := true }

/-- R203: the completion step of any command in flight ends with BUSY = 0 and DONE = 1; ERR and DET belong together and
OUT_LEN is 0 on an error; the schedule, the control bits, LASTOP and WERR are as before. That PENDING too is as before is
the model's choice: R203 does not say what it holds afterwards (entry 8). -/
def Obligations.CompletionStepReports : Prop :=
  ∀ (s : State) (ts : List Turn),
    s.busy = true → s.resetIn = false → s.turns = .engine :: ts →
    ∃ t, step s = .next t ∧ t.busy = false ∧ t.done = true ∧ t.err = detCategory t.det ∧
      (t.err ≠ .none → t.outLen = 0) ∧ t.turns = ts ∧ t.lastop = s.lastop ∧ t.werr = s.werr ∧
      t.pending = s.pending ∧ t.ie = s.ie ∧ t.tidinc = s.tidinc

/-- R22: the completion step is enabled exactly when BUSY = 1; with no command in flight the engine's move changes nothing,
and with no turn left the block idles. That the machine then steps to the same state is the model's choice (entry 3). -/
def Obligations.IdleEngineMoveChangesNothing : Prop :=
  ∀ s : State, s.busy = false →
    (∀ ts, s.turns = .engine :: ts → step s = .next { s with turns := ts }) ∧
    (s.turns = [] → step s = .next s)

/-- R90 (POLL), R22: in every schedule, whatever the number `k` of reads before the completion step, POLL ends, and its last
read returns DONE = 1 and BUSY = 0. -/
def Obligations.PollSeesCompletion : Prop :=
  ∀ (k : Nat) (s : State) (ts : List Turn),
    s.busy = true → s.resetIn = false → s.turns = pollTurns s.base k ++ ts →
    ∃ t w, Host.Core.run core (k + 2) s = .next t ∧ t.turns = ts ∧ t.reply = some w ∧
      w.getLsbD 1 = true ∧ w.getLsbD 0 = false

/-- R220: malformed or corrupted input never aborts: every instruction, in every state, ends in a next state. -/
def Obligations.EveryInstructionEndsInANextState : Prop :=
  ∀ (i : Instr) (s : State), ∃ t, exec i s = .next t

/-! ### Control family -/

/-- R205: NOP changes nothing but STATUS. -/
def Obligations.NopChangesOnlyStatus : Prop :=
  ∀ s : State, exec .nop s = .next { s with err := .none, det := .none, busy := false, done := true }

/-- R85, R206: an illegal command completes with ILLEGAL and its detail, OUT_LEN <- 0, and nothing else changes. -/
def Obligations.IllegalCommandsReportIllegal : Prop :=
  ∀ s : State,
    (∀ i ∈ [Instr.reservedB, .reservedC, .reservedD, .reservedE, .reservedF],
      exec i s = .next (failedWith s .illegal .opcode)) ∧
    ∀ rsv op, exec (.illegalRsvbits rsv op) s = .next (failedWith s .illegal .rsvbits)

/-! ### Checksum family -/

/-- R114, R116: CRC_INIT and LRC_INIT set their accumulator, OUT_LEN and everything else unchanged; LRC_VAL reads 0
afterwards. -/
def Obligations.InitCommandsSetTheirAccumulator : Prop :=
  ∀ s : State,
    exec .crcInit s = .next { s with crcAcc := 0xFFFF, err := .none, det := .none, busy := false, done := true } ∧
    exec .lrcInit s = .next { s with lrcSum := 0, err := .none, det := .none, busy := false, done := true } ∧
    (∀ t, exec .lrcInit s = .next t → t.lrcVal = 0)

/-- R115: CRC_BUF feeds IBUF[0..IN_LEN) to the CRC engine, continuing from the accumulator; RANGE / INLEN when
IN_LEN > BUF_SIZE. -/
def Obligations.CrcBufFeedsTheInput : Prop :=
  ∀ s : State,
    (s.inLen.toNat ≤ s.bufSize →
      exec .crcBuf s = .next { s with
        crcAcc := s.inputBytes.foldl crcStep s.crcAcc, err := .none, det := .none, busy := false, done := true }) ∧
    (s.bufSize < s.inLen.toNat → exec .crcBuf s = .next (failedWith s .range .inlen))

/-- R117: LRC_BUF adds the byte sum of IBUF[0..IN_LEN) modulo 256; RANGE / INLEN when IN_LEN > BUF_SIZE. -/
def Obligations.LrcBufAddsTheInput : Prop :=
  ∀ s : State,
    (s.inLen.toNat ≤ s.bufSize →
      exec .lrcBuf s = .next { s with
        lrcSum := BitVec.ofNat 8 (s.lrcSum.toNat + (s.inputBytes.map BitVec.toNat).sum)
        err := .none, det := .none, busy := false, done := true }) ∧
    (s.bufSize < s.inLen.toNat → exec .lrcBuf s = .next (failedWith s .range .inlen))

/-- R112, R113: a port write while BUSY = 0 feeds its byte to its engine, whatever bits [31:8] are, and changes nothing
else, no flag among it. -/
def Obligations.PortWritesFeedTheirEngine : Prop :=
  ∀ (s : State) (b : Byte) (ignored : BitVec 24), s.busy = false →
    exec (.crcDin b ignored) s = .next { s with crcAcc := crcStep s.crcAcc b } ∧
    exec (.lrcDin b ignored) s = .next { s with lrcSum := BitVec.ofNat 8 (s.lrcSum.toNat + b.toNat) }

/-- R262, R267: a port write while a command runs is dropped, changing nothing but WERR. -/
def Obligations.PortWritesWhileBusyAreDropped : Prop :=
  ∀ (s : State) (b : Byte) (ignored : BitVec 24), s.busy = true →
    exec (.crcDin b ignored) s = .next { s with werr := true } ∧
    exec (.lrcDin b ignored) s = .next { s with werr := true }

/-- R90 (FEED CRC), R112: feeding a message line by line to an idle block applies its bytes in order and changes
nothing else. -/
def Obligations.FeedCrcAppliesTheBytesInOrder : Prop :=
  ∀ (bs : List Byte) (s : State) (ts : List Turn),
    s.busy = false → s.resetIn = false → s.reply = none →
    s.turns = (feedCrcLines bs).map (lineTurn s.base) ++ ts →
    Host.Core.run core bs.length s = .next { s with turns := ts, crcAcc := bs.foldl crcStep s.crcAcc }

/-- R102: `hex_val` by the ranges of its digits, lowercase and uppercase, and none for every other byte. R103: `hex_dec`:
ODD before the scan, NONHEX when some character is no digit, else one byte a pair of digits, high nibble first. -/
def Obligations.HexDecodeFollowsItsRule : Prop :=
  (∀ c : Byte,
    (0x30 ≤ c.toNat → c.toNat ≤ 0x39 → (hexVal c).map BitVec.toNat = some (c.toNat - 0x30)) ∧
    (0x41 ≤ c.toNat → c.toNat ≤ 0x46 → (hexVal c).map BitVec.toNat = some (c.toNat - 0x41 + 10)) ∧
    (0x61 ≤ c.toNat → c.toNat ≤ 0x66 → (hexVal c).map BitVec.toNat = some (c.toNat - 0x61 + 10)) ∧
    (c.toNat < 0x30 ∨ (0x39 < c.toNat ∧ c.toNat < 0x41) ∨ (0x46 < c.toNat ∧ c.toNat < 0x61) ∨ 0x66 < c.toNat →
      hexVal c = none)) ∧
  ∀ t : List Byte,
    (t.length % 2 = 1 → hexDec t = .error .odd) ∧
    (t.length % 2 = 0 → (∃ c ∈ t, hexVal c = none) → hexDec t = .error .nonhex) ∧
    (t.length % 2 = 0 → (∀ c ∈ t, hexVal c ≠ none) →
      ∃ d, hexDec t = .ok d ∧ d.length = t.length / 2 ∧
        ∀ j < d.length, ∃ hi lo, hexVal (t.getD (2 * j) 0) = some hi ∧ hexVal (t.getD (2 * j + 1) 0) = some lo ∧
          (d.getD j 0).toNat = hi.toNat * 16 + lo.toNat)

/-- The spec's inference in R103, `hex_dec(hex_enc(s)) = s` for every `s`. -/
def Obligations.HexDecodeUndoesHexEncode : Prop :=
  ∀ s : List Byte, hexDec (hexEnc s) = .ok s

/-- The residue property the spec gives from general knowledge in R106: the CRC of a message followed by its CRC, low byte
first, is 0. -/
def Obligations.CrcResidueIsZero : Prop :=
  ∀ s : List Byte, crc16 (s ++ le16 (crc16 s)) = 0

/-- The spec's inference in R109: the sum of a message followed by its LRC is 0. -/
def Obligations.LrcOfMessageAndLrcSumsToZero : Prop :=
  ∀ s : List Byte, lrcSum (s ++ [lrc s]) = 0

/-- The spec's inference in R119: the three ways to compute a checksum of the input agree: the buffer commands and the port
writes byte by byte, for an input of at most BUF_SIZE bytes, and the frame builds with UNIT as the first byte, for an input
whose frame fits in BUF_SIZE. -/
def Obligations.ThreeWaysToComputeAChecksumAgree : Prop :=
  ∀ s : State, s.inLen.toNat ≤ s.bufSize →
    (∃ t, execAll [.crcInit, .crcBuf] s = .next t ∧ t.crcAcc = crc16 s.inputBytes) ∧
    (∀ bs : List Byte, ∃ t, execAll (.crcInit :: bs.map fun b => .crcDin b 0) s = .next t ∧ t.crcAcc = crc16 bs) ∧
    (s.inLen.toNat + 3 ≤ s.bufSize →
      ∃ t, exec .rtuBuild s = .next t ∧ t.chkCalc = crc16 (s.unit :: s.inputBytes)) ∧
    (∃ t, execAll [.lrcInit, .lrcBuf] s = .next t ∧ t.lrcVal = lrc s.inputBytes) ∧
    (∀ bs : List Byte, ∃ t, execAll (.lrcInit :: bs.map fun b => .lrcDin b 0) s = .next t ∧ t.lrcVal = lrc bs) ∧
    (2 * s.inLen.toNat + 7 ≤ s.bufSize →
      ∃ t, exec .ascBuild s = .next t ∧ t.chkCalc.toNat = (lrc (s.unit :: s.inputBytes)).toNat)

/-! ### RTU family -/

/-- R131: RTU_BUILD. -/
def Obligations.RtuBuildWritesTheFrame : Prop :=
  ∀ s : State,
    (s.inLen.toNat + 3 ≤ s.bufSize →
      ∃ t, exec .rtuBuild s = .next t ∧
        outputIs s t ([s.unit] ++ s.inputBytes ++
          [(crc16 ([s.unit] ++ s.inputBytes)).extractLsb' 0 8, (crc16 ([s.unit] ++ s.inputBytes)).extractLsb' 8 8]) ∧
        { t with mem := s.mem } = { s with
          outLen := BitVec.ofNat 16 (s.inLen.toNat + 3), chkCalc := crc16 ([s.unit] ++ s.inputBytes),
          err := .none, det := .none, busy := false, done := true }) ∧
    (s.bufSize < s.inLen.toNat → exec .rtuBuild s = .next (failedWith s .range .inlen)) ∧
    (s.inLen.toNat ≤ s.bufSize → s.bufSize < s.inLen.toNat + 3 →
      exec .rtuBuild s = .next (failedWith s .range .outlen))

/-- R132: RTU_PARSE, its errors in the order of the rule and its success. `n` is IN_LEN. -/
def Obligations.RtuParseChecksAndExtracts : Prop :=
  ∀ (s : State) (n : Nat) (c rx : Half), s.inLen.toNat = n →
    c = crc16 (s.inputBytes.take (n - 2)) →
    rx = BitVec.ofNat 16 ((s.ibufAt (n - 2)).toNat + 256 * (s.ibufAt (n - 1)).toNat) →
    (s.bufSize < n → exec .rtuParse s = .next (failedWith s .range .inlen)) ∧
    (n ≤ s.bufSize → n < 5 → exec .rtuParse s = .next (failedWith s .length .short)) ∧
    (n ≤ s.bufSize → 5 ≤ n → c ≠ rx →
      exec .rtuParse s = .next { failedWith s .checksum .crc with chkCalc := c, chkRx := rx }) ∧
    (n ≤ s.bufSize → 5 ≤ n → c = rx →
      ∃ t, exec .rtuParse s = .next t ∧
        outputIs s t ((s.inputBytes.take (n - 2)).drop 1) ∧
        { t with mem := s.mem } = { s with
          outLen := BitVec.ofNat 16 (n - 3), chkCalc := c, chkRx := rx, rxUnit := s.ibufAt 0,
          err := .none, det := .none, busy := false, done := true })

/-- The spec's inference in R134: parsing what RTU_BUILD built, from any state that holds the frame as its input and has the
same BUF_SIZE, gives back the unit and the PDU. -/
def Obligations.RtuRoundTrip : Prop :=
  ∀ s : State, 2 ≤ s.inLen.toNat → s.inLen.toNat + 3 ≤ s.bufSize →
    ∃ t, exec .rtuBuild s = .next t ∧
      ∀ r : State, r.param = s.param → r.inLen = t.outLen → (∀ i < t.outLen.toNat, r.ibufAt i = t.obufAt i) →
        ∃ u, exec .rtuParse r = .next u ∧ u.err = .none ∧ u.rxUnit = s.unit ∧ u.outLen = s.inLen ∧
          (∀ i < s.inLen.toNat, u.obufAt i = s.ibufAt i) ∧ u.chkCalc = u.chkRx

/-! ### ASCII family -/

/-- R151: ASC_BUILD; and R100, R101: its hexadecimal text, two uppercase digits a byte, the high nibble's first. -/
def Obligations.AscBuildWritesTheFrame : Prop :=
  (∀ d : List Byte, (hexEnc d).length = 2 * d.length ∧ ∀ j < d.length,
    ((hexEnc d).getD (2 * j) 0).toNat = hexCode ((d.getD j 0).toNat / 16) ∧
    ((hexEnc d).getD (2 * j + 1) 0).toNat = hexCode ((d.getD j 0).toNat % 16)) ∧
  ∀ s : State,
    (2 * s.inLen.toNat + 7 ≤ s.bufSize →
      ∃ t, exec .ascBuild s = .next t ∧
        outputIs s t ([0x3A] ++ hexEnc ([s.unit] ++ s.inputBytes ++ [lrc ([s.unit] ++ s.inputBytes)]) ++ [0x0D, 0x0A]) ∧
        { t with mem := s.mem } = { s with
          outLen := BitVec.ofNat 16 (2 * s.inLen.toNat + 7)
          chkCalc := BitVec.ofNat 16 (lrc ([s.unit] ++ s.inputBytes)).toNat
          err := .none, det := .none, busy := false, done := true }) ∧
    (s.bufSize < s.inLen.toNat → exec .ascBuild s = .next (failedWith s .range .inlen)) ∧
    (s.inLen.toNat ≤ s.bufSize → s.bufSize < 2 * s.inLen.toNat + 7 →
      exec .ascBuild s = .next (failedWith s .range .outlen))

/-- R152: the errors of ASC_PARSE before the checksum, in the order of the rule. `n` is IN_LEN. -/
def Obligations.AscParseRejectsBadFrames : Prop :=
  ∀ (s : State) (n : Nat), s.inLen.toNat = n →
    (s.bufSize < n → exec .ascParse s = .next (failedWith s .range .inlen)) ∧
    (n ≤ s.bufSize → n < 7 → exec .ascParse s = .next (failedWith s .length .short)) ∧
    (n ≤ s.bufSize → 7 ≤ n → s.ibufAt 0 ≠ 0x3A → exec .ascParse s = .next (failedWith s .framing .start)) ∧
    (n ≤ s.bufSize → 7 ≤ n → s.ibufAt 0 = 0x3A → (s.ibufAt (n - 2) ≠ 0x0D ∨ s.ibufAt (n - 1) ≠ 0x0A) →
      exec .ascParse s = .next (failedWith s .framing .endMark)) ∧
    (n ≤ s.bufSize → 7 ≤ n → s.ibufAt 0 = 0x3A → s.ibufAt (n - 2) = 0x0D → s.ibufAt (n - 1) = 0x0A →
      (n - 3) % 2 = 1 → exec .ascParse s = .next (failedWith s .framing .odd)) ∧
    (n ≤ s.bufSize → 7 ≤ n → s.ibufAt 0 = 0x3A → s.ibufAt (n - 2) = 0x0D → s.ibufAt (n - 1) = 0x0A →
      (n - 3) % 2 = 0 → (∃ i < n - 3, hexVal (s.ibufAt (1 + i)) = none) →
      exec .ascParse s = .next (failedWith s .framing .nonhex))

/-- R152: ASC_PARSE of a frame whose length, markers and hex text `d` are right: the checksum error, and the success. -/
def Obligations.AscParseChecksAndExtracts : Prop :=
  ∀ (s : State) (n m : Nat) (d : List Byte) (c rx : Byte),
    s.inLen.toNat = n → n ≤ s.bufSize → 7 ≤ n → s.ibufAt 0 = 0x3A → s.ibufAt (n - 2) = 0x0D → s.ibufAt (n - 1) = 0x0A →
    hexDec ((s.inputBytes.take (n - 2)).drop 1) = .ok d → m = d.length →
    c = lrc (d.take (m - 1)) → d[m - 1]? = some rx →
    (c ≠ rx →
      exec .ascParse s = .next { failedWith s .checksum .lrc with
        chkCalc := BitVec.ofNat 16 c.toNat, chkRx := BitVec.ofNat 16 rx.toNat }) ∧
    (c = rx →
      ∃ t u, exec .ascParse s = .next t ∧ d[0]? = some u ∧
        outputIs s t ((d.take (m - 1)).drop 1) ∧
        { t with mem := s.mem } = { s with
          outLen := BitVec.ofNat 16 (m - 2), rxUnit := u
          chkCalc := BitVec.ofNat 16 c.toNat, chkRx := BitVec.ofNat 16 rx.toNat
          err := .none, det := .none, busy := false, done := true })

/-- The spec's inference in R155: parsing what ASC_BUILD built, from any state that holds the frame as its input and has the
same BUF_SIZE, gives back the unit and the PDU. -/
def Obligations.AscRoundTrip : Prop :=
  ∀ s : State, 2 * s.inLen.toNat + 7 ≤ s.bufSize →
    ∃ t, exec .ascBuild s = .next t ∧
      ∀ r : State, r.param = s.param → r.inLen = t.outLen → (∀ i < t.outLen.toNat, r.ibufAt i = t.obufAt i) →
        ∃ u, exec .ascParse r = .next u ∧ u.err = .none ∧ u.rxUnit = s.unit ∧ u.outLen = s.inLen ∧
          (∀ i < s.inLen.toNat, u.obufAt i = s.ibufAt i) ∧ u.chkCalc = u.chkRx ∧
          u.chkCalc.toNat = (lrc ([s.unit] ++ s.inputBytes)).toNat

/-! ### Length-prefixed family -/

/-- R181: LPF_BUILD: the header with TID as it stands, then the increment under TIDINC. -/
def Obligations.LpfBuildWritesTheFrame : Prop :=
  ∀ s : State,
    (s.inLen.toNat + 7 ≤ s.bufSize →
      ∃ t, exec .lpfBuild s = .next t ∧
        outputIs s t ([BitVec.ofNat 8 (s.tid.toNat / 256), BitVec.ofNat 8 s.tid.toNat, 0x00, 0x00,
          BitVec.ofNat 8 ((s.inLen.toNat + 1) / 256), BitVec.ofNat 8 (s.inLen.toNat + 1), s.unit] ++ s.inputBytes) ∧
        { t with mem := s.mem } = { s with
          outLen := BitVec.ofNat 16 (s.inLen.toNat + 7)
          tid := if s.tidinc then BitVec.ofNat 16 ((s.tid.toNat + 1) % 65536) else s.tid
          err := .none, det := .none, busy := false, done := true }) ∧
    (s.bufSize < s.inLen.toNat → exec .lpfBuild s = .next (failedWith s .range .inlen)) ∧
    (s.inLen.toNat ≤ s.bufSize → s.bufSize < s.inLen.toNat + 7 →
      exec .lpfBuild s = .next (failedWith s .range .outlen))

/-- R182: LPF_PARSE, its errors in the order of the rule and its success. `n` is IN_LEN, `len` the length field. -/
def Obligations.LpfParseChecksAndExtracts : Prop :=
  ∀ (s : State) (n len : Nat), s.inLen.toNat = n →
    len = (s.ibufAt 4).toNat * 256 + (s.ibufAt 5).toNat →
    (s.bufSize < n → exec .lpfParse s = .next (failedWith s .range .inlen)) ∧
    (n ≤ s.bufSize → n < 8 → exec .lpfParse s = .next (failedWith s .length .short)) ∧
    (n ≤ s.bufSize → 8 ≤ n → n ≠ len + 6 → exec .lpfParse s = .next (failedWith s .framing .lenfield)) ∧
    (n ≤ s.bufSize → 8 ≤ n → n = len + 6 →
      ∃ t, exec .lpfParse s = .next t ∧
        outputIs s t (s.inputBytes.drop 7) ∧
        { t with mem := s.mem } = { s with
          outLen := BitVec.ofNat 16 (len - 1)
          rxTid := BitVec.ofNat 16 ((s.ibufAt 0).toNat * 256 + (s.ibufAt 1).toNat)
          rxPid := BitVec.ofNat 16 ((s.ibufAt 2).toNat * 256 + (s.ibufAt 3).toNat)
          rxLen := BitVec.ofNat 16 len, rxUnit := s.ibufAt 6
          err := .none, det := .none, busy := false, done := true })

/-- The spec's inference in R186: parsing what LPF_BUILD built gives back the transaction id, the unit and the PDU; a frame
of an empty PDU is too short to parse. -/
def Obligations.LpfRoundTrip : Prop :=
  ∀ s : State, s.inLen.toNat + 7 ≤ s.bufSize →
    ∃ t, exec .lpfBuild s = .next t ∧
      ∀ r : State, r.param = s.param → r.inLen = t.outLen → (∀ i < t.outLen.toNat, r.ibufAt i = t.obufAt i) →
        (1 ≤ s.inLen.toNat →
          ∃ u, exec .lpfParse r = .next u ∧ u.err = .none ∧ u.rxTid = s.tid ∧ u.rxPid = 0 ∧
            u.rxLen.toNat = s.inLen.toNat + 1 ∧ u.rxUnit = s.unit ∧ u.outLen = s.inLen ∧
            (∀ i < s.inLen.toNat, u.obufAt i = s.ibufAt i)) ∧
        (s.inLen.toNat = 0 → exec .lpfParse r = .next (failedWith r .length .short))

/-- R184: TID changes under one instruction only, a successful LPF_BUILD with TIDINC = 1, which adds 1 modulo 65536 after
placing the old value in the header. -/
def Obligations.TidChangesOnlyByTheIncrement : Prop :=
  ∀ (i : Instr) (s t : State), exec i s = .next t →
    (i = .lpfBuild → t.err = .none →
      (t.obufAt 0).toNat = s.tid.toNat / 256 ∧ (t.obufAt 1).toNat = s.tid.toNat % 256) ∧
    (i = .lpfBuild → t.err = .none → s.tidinc = true → t.tid.toNat = (s.tid.toNat + 1) % 65536) ∧
    (¬(i = .lpfBuild ∧ t.err = .none ∧ s.tidinc = true) → t.tid = s.tid)

/-! ### Rules about every command -/

/-- R226: errors are precise: a failed command changes nothing but STATUS, OUT_LEN, and, for a CHECKSUM error alone,
CHK_CALC and CHK_RX, which then hold the two compared values. -/
def Obligations.FailedCommandsArePrecise : Prop :=
  ∀ (i : Instr) (s t : State), isCommand i = true → exec i s = .next t → t.err ≠ .none →
    (t.err ≠ .checksum → t = failedWith s t.err t.det) ∧
    (t.err = .checksum →
      t = { failedWith s .checksum t.det with chkCalc := t.chkCalc, chkRx := t.chkRx } ∧
      t.chkCalc ≠ t.chkRx ∧
      ((i = .rtuParse ∧ t.chkCalc = crc16 (s.inputBytes.take (s.inLen.toNat - 2)) ∧
          t.chkRx.toNat = (s.ibufAt (s.inLen.toNat - 2)).toNat + 256 * (s.ibufAt (s.inLen.toNat - 1)).toNat) ∨
        (i = .ascParse ∧ ∃ d, hexDec ((s.inputBytes.take (s.inLen.toNat - 2)).drop 1) = .ok d ∧
          t.chkCalc.toNat = (lrc (d.take (d.length - 1))).toNat ∧
          d[d.length - 1]? = some (t.chkRx.setWidth 8) ∧ t.chkRx.toNat < 256)))

/-- R36, R38, R52: each accumulator is changed by its port write and its two commands only. -/
def Obligations.AccumulatorsChangeOnlyByTheirOwn : Prop :=
  ∀ (i : Instr) (s t : State), exec i s = .next t →
    (t.crcAcc ≠ s.crcAcc → i = .crcInit ∨ i = .crcBuf ∨ ∃ b g, i = .crcDin b g) ∧
    (t.lrcSum ≠ s.lrcSum → i = .lrcInit ∨ i = .lrcBuf ∨ ∃ b g, i = .lrcDin b g)

/-- R33: OUT_LEN is left unchanged by a successful NOP, CRC_INIT, CRC_BUF, LRC_INIT or LRC_BUF, is set to 0 by every command
that fails, and counts at most BUF_SIZE bytes after a successful frame command. -/
def Obligations.OutLenCountsTheOutput : Prop :=
  ∀ (i : Instr) (s t : State), isCommand i = true → exec i s = .next t →
    (t.err ≠ .none → t.outLen = 0) ∧
    (t.err = .none → isFrameCommand i = false → t.outLen = s.outLen) ∧
    (t.err = .none → isFrameCommand i = true → t.outLen.toNat ≤ s.bufSize)

/-- R47, R78: no command writes IBUF. -/
def Obligations.NoInstructionWritesIbuf : Prop :=
  ∀ (i : Instr) (s t : State) (k : Nat), s.legalBufSize → exec i s = .next t → k < s.bufSize → t.ibufAt k = s.ibufAt k

/-- R48, R78: an instruction writes only `OBUF[0..OUT_LEN)`: every other byte of memory keeps what it held, in OBUF from
OUT_LEN on, in IBUF and anywhere else, and so does all of memory when the command fails or is no frame command. -/
def Obligations.CommandsWriteOnlyTheirOutput : Prop :=
  ∀ (i : Instr) (s t : State) (a : Nat), exec i s = .next t →
    ((t.err ≠ .none ∨ isFrameCommand i = false) → t.readByte a = s.readByte a) ∧
    ((a < Config.obufBase ∨ Config.obufBase + t.outLen.toNat ≤ a) → t.readByte a = s.readByte a)

/-- R47: bytes of IBUF at index IN_LEN and above are read by no command: two states that differ only there and in OBUF agree,
after any command, in every register, and, after a successful frame command, in its whole output. -/
def Obligations.InputBeyondInLenIsNotRead : Prop :=
  ∀ (i : Instr) (s : State) (m : Memory), isCommand i = true →
    (∀ k < s.inLen.toNat, ({ s with mem := m } : State).ibufAt k = s.ibufAt k) →
    ∃ t u, exec i s = .next t ∧ exec i { s with mem := m } = .next u ∧
      { u with mem := [] } = { t with mem := [] } ∧
      (isFrameCommand i = true → ∀ k < t.outLen.toNat, u.obufAt k = t.obufAt k)

/-! ### Host accesses -/

/-- R63: a host read of a register with BUSY = 0 returns its value and changes no state of the block. -/
def Obligations.RegisterReadReturnsItsValue : Prop :=
  ∀ (s : State) (ts : List Turn) (r : Reg),
    s.busy = false → s.resetIn = false → s.nextLine (.rd (regOffset r)) ts →
    ∃ w : Word, step s = .next { s with turns := ts, reply := some w } ∧ w.toNat = regValue s r

/-- R62, R63: a host read of word `k` of IBUF or OBUF with BUSY = 0 returns its four bytes, byte 0 least significant, and
changes no state of the block. -/
def Obligations.BufferReadReturnsThePackedWord : Prop :=
  ∀ (s : State) (ts : List Turn) (k : Nat),
    s.legalBufSize → 4 * k < s.bufSize → s.busy = false → s.resetIn = false →
    (s.nextLine (.rd (0x1000 + 4 * k)) ts →
      ∃ w : Word, step s = .next { s with turns := ts, reply := some w } ∧
        w.toNat = (s.ibufAt (4 * k)).toNat + (s.ibufAt (4 * k + 1)).toNat * 2 ^ 8 +
          (s.ibufAt (4 * k + 2)).toNat * 2 ^ 16 + (s.ibufAt (4 * k + 3)).toNat * 2 ^ 24) ∧
    (s.nextLine (.rd (0x2000 + 4 * k)) ts →
      ∃ w : Word, step s = .next { s with turns := ts, reply := some w } ∧
        w.toNat = (s.obufAt (4 * k)).toNat + (s.obufAt (4 * k + 1)).toNat * 2 ^ 8 +
          (s.obufAt (4 * k + 2)).toNat * 2 ^ 16 + (s.obufAt (4 * k + 3)).toNat * 2 ^ 24)

/-- R263: while a command runs, a read of ID, PARAM, CTRL or STATUS returns its value and a read of any other mapped offset
returns some word; neither changes the block's state. `busyReads` is the model's own counter of free values (entry 5). -/
def Obligations.ReadWhileBusy : Prop :=
  ∀ (s : State) (ts : List Turn) (off : Nat),
    s.legalBufSize → s.busy = true → s.resetIn = false → mappedWord s.bufSize off → s.nextLine (.rd off) ts →
    (∀ r ∈ [Reg.id, .param, .ctrl, .status], off = regOffset r →
      ∃ w : Word, step s = .next { s with turns := ts, reply := some w } ∧ w.toNat = regValue s r) ∧
    (0x010 ≤ off →
      ∃ w : Word, step s = .next { s with turns := ts, reply := some w, busyReads := s.busyReads + 1 })

/-- R262: while a command runs, a host write to any mapped, aligned offset is dropped, changing nothing but WERR, unless it
requests a soft reset. -/
def Obligations.WriteWhileBusyIsDropped : Prop :=
  ∀ (s : State) (ts : List Turn) (off : Nat) (v : Word),
    s.legalBufSize → s.busy = true → s.resetIn = false → mappedWord s.bufSize off → s.nextLine (.wr off v) ts →
    ¬(off = 0x008 ∧ v.getLsbD 0 = true) →
    step s = .next { s with turns := ts, reply := none, werr := true }

/-- R64: a host write of word `k` of IBUF with BUSY = 0 sets its four bytes together and nothing else. -/
def Obligations.IbufWriteSetsFourBytes : Prop :=
  ∀ (s : State) (ts : List Turn) (k : Nat) (v : Word),
    s.legalBufSize → 4 * k < s.bufSize → s.busy = false → s.resetIn = false →
    s.nextLine (.wr (0x1000 + 4 * k) v) ts →
    ∃ t, step s = .next t ∧
      (∀ j < 4, (t.ibufAt (4 * k + j)).toNat = v.toNat / 2 ^ (8 * j) % 256) ∧
      (∀ a, (a < 0x1000 + 4 * k ∨ 0x1000 + 4 * k + 4 ≤ a) → t.readByte a = s.readByte a) ∧
      { t with mem := s.mem } = { s with turns := ts, reply := none }

/-- R26, R64: a host write to a read-only register or to OBUF with BUSY = 0 is ignored. -/
def Obligations.WritesToReadOnlyWordsAreIgnored : Prop :=
  ∀ (s : State) (ts : List Turn) (off : Nat) (v : Word),
    s.legalBufSize → s.busy = false → s.resetIn = false → s.nextLine (.wr off v) ts →
    ((∃ r ∈ [Reg.id, .param, .outLen, .lrcVal, .chkCalc, .chkRx, .rxUnit, .rxTid, .rxPid, .rxLen], off = regOffset r) ∨
      ∃ k, 4 * k < s.bufSize ∧ off = 0x2000 + 4 * k) →
    step s = .next { s with turns := ts, reply := none }

/-- R32, R34, R35, R110, R111, R208: a host write to a read-write register with BUSY = 0 sets its field, the other bits
ignored, and nothing else. -/
def Obligations.RegisterWritesSetTheirField : Prop :=
  ∀ (s : State) (ts : List Turn) (v : Word), s.busy = false → s.resetIn = false →
    (s.nextLine (.wr 0x014 v) ts → step s = .next { s with turns := ts, reply := none, inLen := v.extractLsb' 0 16 }) ∧
    (s.nextLine (.wr 0x01C v) ts → step s = .next { s with turns := ts, reply := none, unit := v.extractLsb' 0 8 }) ∧
    (s.nextLine (.wr 0x020 v) ts → step s = .next { s with turns := ts, reply := none, tid := v.extractLsb' 0 16 }) ∧
    (s.nextLine (.wr 0x024 v) ts → step s = .next { s with turns := ts, reply := none, crcAcc := v.extractLsb' 0 16 }) ∧
    (s.nextLine (.wr 0x02C v) ts → step s = .next { s with turns := ts, reply := none, lrcSum := v.extractLsb' 0 8 }) ∧
    (s.nextLine (.wr 0x008 v) ts → v.getLsbD 0 = false →
      step s = .next { s with turns := ts, reply := none, ie := v.getLsbD 1, tidinc := v.getLsbD 2 })

/-- R209: a host write to STATUS with BUSY = 0 clears DONE and WERR where it writes 1, and nothing else. -/
def Obligations.StatusWriteClearsFlags : Prop :=
  ∀ (s : State) (ts : List Turn) (v : Word),
    s.busy = false → s.resetIn = false → s.nextLine (.wr 0x00C v) ts →
    step s = .next { s with
      turns := ts, reply := none
      done := if v.getLsbD 1 then false else s.done
      werr := if v.getLsbD 2 then false else s.werr }

/-- R210, R251: a write of CTRL with bit 0 = 1 is a soft reset, whether a command runs or not: every register at its reset
value, the running command abandoned, the buffers kept. -/
def Obligations.SoftResetResetsTheRegisters : Prop :=
  ∀ (s : State) (ts : List Turn) (v : Word),
    s.resetIn = false → s.nextLine (.wr 0x008 v) ts → v.getLsbD 0 = true →
    step s = .next { State.reset with
      param := s.param, mem := s.mem, base := s.base, turns := ts
      powerOns := s.powerOns, busyReads := s.busyReads }

/-- R61, R65, R66: an access of another size than 32 bits, or at a misaligned or unmapped offset, is a bus error: the step
ends in the fault, with no state of its own, read or write, busy or not. -/
def Obligations.BadAccessIsABusError : Prop :=
  ∀ (s : State) (ts : List Turn) (off size : Nat) (op : AccessOp),
    s.legalBufSize → s.resetIn = false → off < 0x4000 →
    s.turns = .host { addr := s.base + off, size := size, op := op } :: ts →
    (size ≠ 4 ∨ ¬mappedWord s.bufSize off) →
    step s = .fault (.busError off)

/-- R61, R66: the only fault is the bus error of a refused access: a step whose next turn is an accepted access, or no
access, ends in a next state. -/
def Obligations.OnlyRefusedAccessesFault : Prop :=
  ∀ s : State, s.legalBufSize →
    (∀ (off : Nat) (op : AccessOp) (ts : List Turn), mappedWord s.bufSize off →
      s.turns = .host { addr := s.base + off, size := 4, op := op } :: ts → ∃ t, step s = .next t) ∧
    ((∀ a ts, s.turns ≠ .host a :: ts) → ∃ t, step s = .next t)

/-- R48, R64: no host access changes OBUF. -/
def Obligations.HostAccessesNeverChangeObuf : Prop :=
  ∀ (s t : State) (a : Access) (ts : List Turn) (k : Nat),
    s.legalBufSize → s.turns = .host a :: ts → step s = .next t → k < s.bufSize → t.obufAt k = s.obufAt k

/-! ### Reset, interrupt and invariants -/

/-- R250: while reset is asserted no host access is answered, no command completes, and when it is released the state is
that of the table, the buffers unspecified again. That assertion itself resets the registers is the model's choice (entry 6). -/
def Obligations.PowerOnResetGivesTheTable : Prop :=
  ∀ (s : State) (ts : List Turn),
    (s.turns = .resetAssert :: ts →
      ∃ t, step s = .next t ∧ t.resetIn = true ∧ t.busy = false ∧ t.irq = false ∧ t.turns = ts) ∧
    (s.resetIn = true → ∀ a, s.turns = .host a :: ts → step s = .next { s with turns := ts, reply := none }) ∧
    (s.resetIn = true → s.turns = .engine :: ts → step s = .next { s with turns := ts }) ∧
    (s.resetIn = true → s.turns = .resetRelease :: ts →
      step s = .next { State.reset with
        param := s.param, base := s.base, turns := ts, reply := s.reply
        powerOns := s.powerOns + 1, busyReads := s.busyReads })

/-- R250: the state after power-on reset holds the values of the table: idle, no error, interrupt low, PARAM = BUF_SIZE and
every register but ID, PARAM and CRC_ACC 0. That BUF_SIZE is 1024 in State.reset is the model's choice (entry 1), and so is
the form in which unspecified buffers are held, nothing listed (entry 4). -/
def Obligations.ResetStateHoldsTheTable : Prop :=
  State.reset.statusWord = 0 ∧ State.reset.ctrlWord = 0 ∧ State.reset.readReg .id = 0x584D4601 ∧
  (State.reset.readReg .param).toNat = State.reset.bufSize ∧ State.reset.bufSize = 1024 ∧
  State.reset.inLen = 0 ∧ State.reset.outLen = 0 ∧ State.reset.unit = 0 ∧ State.reset.tid = 0 ∧
  State.reset.crcAcc = 0xFFFF ∧ State.reset.lrcSum = 0 ∧ State.reset.lrcVal = 0 ∧
  State.reset.chkCalc = 0 ∧ State.reset.chkRx = 0 ∧
  State.reset.rxUnit = 0 ∧ State.reset.rxTid = 0 ∧ State.reset.rxPid = 0 ∧ State.reset.rxLen = 0 ∧
  State.reset.busy = false ∧ State.reset.irq = false ∧ State.reset.mem = []

/-- R50, R229: irq follows DONE and IE: after any command it is high exactly when IE = 1, successful or not; accepting a
command, clearing DONE and clearing IE lower it. -/
def Obligations.InterruptFollowsCompletion : Prop :=
  (∀ (i : Instr) (s t : State), isCommand i = true → exec i s = .next t → t.irq = s.ie) ∧
  ∀ (s t : State) (ts : List Turn) (v : Word), s.busy = false → s.resetIn = false → step s = .next t →
    (s.nextLine (.wr 0x010 v) ts → t.irq = false) ∧
    (s.nextLine (.wr 0x00C v) ts → v.getLsbD 1 = true → t.irq = false) ∧
    (s.nextLine (.wr 0x008 v) ts → v.getLsbD 1 = false → t.irq = false)

/-- R30, R262: WERR is set by a dropped write and by nothing else: a step that drops no host write never sets it. -/
def Obligations.WerrIsSetOnlyByADroppedWrite : Prop :=
  ∀ s t : State, s.werr = false → s.writeHazard = false → step s = .next t → t.werr = false

/-- R28, R8: no step changes the parameters BUF_SIZE and BASE. -/
def Obligations.NoStepChangesTheParameters : Prop :=
  ∀ s t : State, step s = .next t → t.param = s.param ∧ t.base = s.base

/-- The invariant holds after power-on reset. Its clauses on BUF_SIZE and BASE hold by the values the model chose for them
(entries 1 and 2). -/
def Obligations.ResetMeetsTheInvariant : Prop := State.reset.Inv

/-- Every step keeps the invariant: the memory's canonical form, only buffer bytes held, legal parameters, STATUS clean while
a command runs (R202), DET belonging to ERR (R222), OUT_LEN 0 on an error (R226) and within BUF_SIZE, and no command in
flight while reset is asserted, which is the model's choice (entry 6). -/
def Obligations.EveryStepKeepsTheInvariant : Prop :=
  ∀ s t : State, s.Inv → step s = .next t → t.Inv
end

