-- ==== Sys2Proof/Laws/State.lean ====
section
/-! SUPPORT. One lemma per field of State per named update, true by rfl, so that no proof unfolds a record update. -/

namespace Sys2Proof.Machine

variable (s : State)

@[simp] theorem State.storeBytes_param (a : Nat) (bs : List Byte) : (s.storeBytes a bs).param = s.param := rfl
@[simp] theorem State.storeBytes_ie (a : Nat) (bs : List Byte) : (s.storeBytes a bs).ie = s.ie := rfl
@[simp] theorem State.storeBytes_tidinc (a : Nat) (bs : List Byte) : (s.storeBytes a bs).tidinc = s.tidinc := rfl
@[simp] theorem State.storeBytes_busy (a : Nat) (bs : List Byte) : (s.storeBytes a bs).busy = s.busy := rfl
@[simp] theorem State.storeBytes_done (a : Nat) (bs : List Byte) : (s.storeBytes a bs).done = s.done := rfl
@[simp] theorem State.storeBytes_werr (a : Nat) (bs : List Byte) : (s.storeBytes a bs).werr = s.werr := rfl
@[simp] theorem State.storeBytes_err (a : Nat) (bs : List Byte) : (s.storeBytes a bs).err = s.err := rfl
@[simp] theorem State.storeBytes_det (a : Nat) (bs : List Byte) : (s.storeBytes a bs).det = s.det := rfl
@[simp] theorem State.storeBytes_lastop (a : Nat) (bs : List Byte) : (s.storeBytes a bs).lastop = s.lastop := rfl
@[simp] theorem State.storeBytes_inLen (a : Nat) (bs : List Byte) : (s.storeBytes a bs).inLen = s.inLen := rfl
@[simp] theorem State.storeBytes_outLen (a : Nat) (bs : List Byte) : (s.storeBytes a bs).outLen = s.outLen := rfl
@[simp] theorem State.storeBytes_unit (a : Nat) (bs : List Byte) : (s.storeBytes a bs).unit = s.unit := rfl
@[simp] theorem State.storeBytes_tid (a : Nat) (bs : List Byte) : (s.storeBytes a bs).tid = s.tid := rfl
@[simp] theorem State.storeBytes_crcAcc (a : Nat) (bs : List Byte) : (s.storeBytes a bs).crcAcc = s.crcAcc := rfl
@[simp] theorem State.storeBytes_lrcSum (a : Nat) (bs : List Byte) : (s.storeBytes a bs).lrcSum = s.lrcSum := rfl
@[simp] theorem State.storeBytes_chkCalc (a : Nat) (bs : List Byte) : (s.storeBytes a bs).chkCalc = s.chkCalc := rfl
@[simp] theorem State.storeBytes_chkRx (a : Nat) (bs : List Byte) : (s.storeBytes a bs).chkRx = s.chkRx := rfl
@[simp] theorem State.storeBytes_rxUnit (a : Nat) (bs : List Byte) : (s.storeBytes a bs).rxUnit = s.rxUnit := rfl
@[simp] theorem State.storeBytes_rxTid (a : Nat) (bs : List Byte) : (s.storeBytes a bs).rxTid = s.rxTid := rfl
@[simp] theorem State.storeBytes_rxPid (a : Nat) (bs : List Byte) : (s.storeBytes a bs).rxPid = s.rxPid := rfl
@[simp] theorem State.storeBytes_rxLen (a : Nat) (bs : List Byte) : (s.storeBytes a bs).rxLen = s.rxLen := rfl
@[simp] theorem State.storeBytes_pending (a : Nat) (bs : List Byte) : (s.storeBytes a bs).pending = s.pending := rfl
@[simp] theorem State.storeBytes_mem (a : Nat) (bs : List Byte) : (s.storeBytes a bs).mem = Memory.insertBytes s.mem a bs := rfl
@[simp] theorem State.storeBytes_base (a : Nat) (bs : List Byte) : (s.storeBytes a bs).base = s.base := rfl
@[simp] theorem State.storeBytes_resetIn (a : Nat) (bs : List Byte) : (s.storeBytes a bs).resetIn = s.resetIn := rfl
@[simp] theorem State.storeBytes_turns (a : Nat) (bs : List Byte) : (s.storeBytes a bs).turns = s.turns := rfl
@[simp] theorem State.storeBytes_reply (a : Nat) (bs : List Byte) : (s.storeBytes a bs).reply = s.reply := rfl
@[simp] theorem State.storeBytes_powerOns (a : Nat) (bs : List Byte) : (s.storeBytes a bs).powerOns = s.powerOns := rfl
@[simp] theorem State.storeBytes_busyReads (a : Nat) (bs : List Byte) : (s.storeBytes a bs).busyReads = s.busyReads := rfl

@[simp] theorem State.putOutput_param (bs : List Byte) : (s.putOutput bs).param = s.param := rfl
@[simp] theorem State.putOutput_ie (bs : List Byte) : (s.putOutput bs).ie = s.ie := rfl
@[simp] theorem State.putOutput_tidinc (bs : List Byte) : (s.putOutput bs).tidinc = s.tidinc := rfl
@[simp] theorem State.putOutput_busy (bs : List Byte) : (s.putOutput bs).busy = s.busy := rfl
@[simp] theorem State.putOutput_done (bs : List Byte) : (s.putOutput bs).done = s.done := rfl
@[simp] theorem State.putOutput_werr (bs : List Byte) : (s.putOutput bs).werr = s.werr := rfl
@[simp] theorem State.putOutput_err (bs : List Byte) : (s.putOutput bs).err = s.err := rfl
@[simp] theorem State.putOutput_det (bs : List Byte) : (s.putOutput bs).det = s.det := rfl
@[simp] theorem State.putOutput_lastop (bs : List Byte) : (s.putOutput bs).lastop = s.lastop := rfl
@[simp] theorem State.putOutput_inLen (bs : List Byte) : (s.putOutput bs).inLen = s.inLen := rfl
@[simp] theorem State.putOutput_outLen (bs : List Byte) : (s.putOutput bs).outLen = BitVec.ofNat 16 bs.length := rfl
@[simp] theorem State.putOutput_unit (bs : List Byte) : (s.putOutput bs).unit = s.unit := rfl
@[simp] theorem State.putOutput_tid (bs : List Byte) : (s.putOutput bs).tid = s.tid := rfl
@[simp] theorem State.putOutput_crcAcc (bs : List Byte) : (s.putOutput bs).crcAcc = s.crcAcc := rfl
@[simp] theorem State.putOutput_lrcSum (bs : List Byte) : (s.putOutput bs).lrcSum = s.lrcSum := rfl
@[simp] theorem State.putOutput_chkCalc (bs : List Byte) : (s.putOutput bs).chkCalc = s.chkCalc := rfl
@[simp] theorem State.putOutput_chkRx (bs : List Byte) : (s.putOutput bs).chkRx = s.chkRx := rfl
@[simp] theorem State.putOutput_rxUnit (bs : List Byte) : (s.putOutput bs).rxUnit = s.rxUnit := rfl
@[simp] theorem State.putOutput_rxTid (bs : List Byte) : (s.putOutput bs).rxTid = s.rxTid := rfl
@[simp] theorem State.putOutput_rxPid (bs : List Byte) : (s.putOutput bs).rxPid = s.rxPid := rfl
@[simp] theorem State.putOutput_rxLen (bs : List Byte) : (s.putOutput bs).rxLen = s.rxLen := rfl
@[simp] theorem State.putOutput_pending (bs : List Byte) : (s.putOutput bs).pending = s.pending := rfl
@[simp] theorem State.putOutput_mem (bs : List Byte) : (s.putOutput bs).mem = Memory.insertBytes s.mem Config.obufBase bs := rfl
@[simp] theorem State.putOutput_base (bs : List Byte) : (s.putOutput bs).base = s.base := rfl
@[simp] theorem State.putOutput_resetIn (bs : List Byte) : (s.putOutput bs).resetIn = s.resetIn := rfl
@[simp] theorem State.putOutput_turns (bs : List Byte) : (s.putOutput bs).turns = s.turns := rfl
@[simp] theorem State.putOutput_reply (bs : List Byte) : (s.putOutput bs).reply = s.reply := rfl
@[simp] theorem State.putOutput_powerOns (bs : List Byte) : (s.putOutput bs).powerOns = s.powerOns := rfl
@[simp] theorem State.putOutput_busyReads (bs : List Byte) : (s.putOutput bs).busyReads = s.busyReads := rfl

@[simp] theorem State.finish_param (c : ErrCat) (d : ErrDet) : (s.finish c d).param = s.param := rfl
@[simp] theorem State.finish_ie (c : ErrCat) (d : ErrDet) : (s.finish c d).ie = s.ie := rfl
@[simp] theorem State.finish_tidinc (c : ErrCat) (d : ErrDet) : (s.finish c d).tidinc = s.tidinc := rfl
@[simp] theorem State.finish_busy (c : ErrCat) (d : ErrDet) : (s.finish c d).busy = false := rfl
@[simp] theorem State.finish_done (c : ErrCat) (d : ErrDet) : (s.finish c d).done = true := rfl
@[simp] theorem State.finish_werr (c : ErrCat) (d : ErrDet) : (s.finish c d).werr = s.werr := rfl
@[simp] theorem State.finish_err (c : ErrCat) (d : ErrDet) : (s.finish c d).err = c := rfl
@[simp] theorem State.finish_det (c : ErrCat) (d : ErrDet) : (s.finish c d).det = d := rfl
@[simp] theorem State.finish_lastop (c : ErrCat) (d : ErrDet) : (s.finish c d).lastop = s.lastop := rfl
@[simp] theorem State.finish_inLen (c : ErrCat) (d : ErrDet) : (s.finish c d).inLen = s.inLen := rfl
@[simp] theorem State.finish_outLen (c : ErrCat) (d : ErrDet) : (s.finish c d).outLen = s.outLen := rfl
@[simp] theorem State.finish_unit (c : ErrCat) (d : ErrDet) : (s.finish c d).unit = s.unit := rfl
@[simp] theorem State.finish_tid (c : ErrCat) (d : ErrDet) : (s.finish c d).tid = s.tid := rfl
@[simp] theorem State.finish_crcAcc (c : ErrCat) (d : ErrDet) : (s.finish c d).crcAcc = s.crcAcc := rfl
@[simp] theorem State.finish_lrcSum (c : ErrCat) (d : ErrDet) : (s.finish c d).lrcSum = s.lrcSum := rfl
@[simp] theorem State.finish_chkCalc (c : ErrCat) (d : ErrDet) : (s.finish c d).chkCalc = s.chkCalc := rfl
@[simp] theorem State.finish_chkRx (c : ErrCat) (d : ErrDet) : (s.finish c d).chkRx = s.chkRx := rfl
@[simp] theorem State.finish_rxUnit (c : ErrCat) (d : ErrDet) : (s.finish c d).rxUnit = s.rxUnit := rfl
@[simp] theorem State.finish_rxTid (c : ErrCat) (d : ErrDet) : (s.finish c d).rxTid = s.rxTid := rfl
@[simp] theorem State.finish_rxPid (c : ErrCat) (d : ErrDet) : (s.finish c d).rxPid = s.rxPid := rfl
@[simp] theorem State.finish_rxLen (c : ErrCat) (d : ErrDet) : (s.finish c d).rxLen = s.rxLen := rfl
@[simp] theorem State.finish_pending (c : ErrCat) (d : ErrDet) : (s.finish c d).pending = s.pending := rfl
@[simp] theorem State.finish_mem (c : ErrCat) (d : ErrDet) : (s.finish c d).mem = s.mem := rfl
@[simp] theorem State.finish_base (c : ErrCat) (d : ErrDet) : (s.finish c d).base = s.base := rfl
@[simp] theorem State.finish_resetIn (c : ErrCat) (d : ErrDet) : (s.finish c d).resetIn = s.resetIn := rfl
@[simp] theorem State.finish_turns (c : ErrCat) (d : ErrDet) : (s.finish c d).turns = s.turns := rfl
@[simp] theorem State.finish_reply (c : ErrCat) (d : ErrDet) : (s.finish c d).reply = s.reply := rfl
@[simp] theorem State.finish_powerOns (c : ErrCat) (d : ErrDet) : (s.finish c d).powerOns = s.powerOns := rfl
@[simp] theorem State.finish_busyReads (c : ErrCat) (d : ErrDet) : (s.finish c d).busyReads = s.busyReads := rfl

@[simp] theorem State.accept_param (v : Word) : (s.accept v).param = s.param := rfl
@[simp] theorem State.accept_ie (v : Word) : (s.accept v).ie = s.ie := rfl
@[simp] theorem State.accept_tidinc (v : Word) : (s.accept v).tidinc = s.tidinc := rfl
@[simp] theorem State.accept_busy (v : Word) : (s.accept v).busy = true := rfl
@[simp] theorem State.accept_done (v : Word) : (s.accept v).done = false := rfl
@[simp] theorem State.accept_werr (v : Word) : (s.accept v).werr = false := rfl
@[simp] theorem State.accept_err (v : Word) : (s.accept v).err = ErrCat.none := rfl
@[simp] theorem State.accept_det (v : Word) : (s.accept v).det = ErrDet.none := rfl
@[simp] theorem State.accept_lastop (v : Word) : (s.accept v).lastop = v.extractLsb' 0 4 := rfl
@[simp] theorem State.accept_inLen (v : Word) : (s.accept v).inLen = s.inLen := rfl
@[simp] theorem State.accept_outLen (v : Word) : (s.accept v).outLen = s.outLen := rfl
@[simp] theorem State.accept_unit (v : Word) : (s.accept v).unit = s.unit := rfl
@[simp] theorem State.accept_tid (v : Word) : (s.accept v).tid = s.tid := rfl
@[simp] theorem State.accept_crcAcc (v : Word) : (s.accept v).crcAcc = s.crcAcc := rfl
@[simp] theorem State.accept_lrcSum (v : Word) : (s.accept v).lrcSum = s.lrcSum := rfl
@[simp] theorem State.accept_chkCalc (v : Word) : (s.accept v).chkCalc = s.chkCalc := rfl
@[simp] theorem State.accept_chkRx (v : Word) : (s.accept v).chkRx = s.chkRx := rfl
@[simp] theorem State.accept_rxUnit (v : Word) : (s.accept v).rxUnit = s.rxUnit := rfl
@[simp] theorem State.accept_rxTid (v : Word) : (s.accept v).rxTid = s.rxTid := rfl
@[simp] theorem State.accept_rxPid (v : Word) : (s.accept v).rxPid = s.rxPid := rfl
@[simp] theorem State.accept_rxLen (v : Word) : (s.accept v).rxLen = s.rxLen := rfl
@[simp] theorem State.accept_pending (v : Word) : (s.accept v).pending = v := rfl
@[simp] theorem State.accept_mem (v : Word) : (s.accept v).mem = s.mem := rfl
@[simp] theorem State.accept_base (v : Word) : (s.accept v).base = s.base := rfl
@[simp] theorem State.accept_resetIn (v : Word) : (s.accept v).resetIn = s.resetIn := rfl
@[simp] theorem State.accept_turns (v : Word) : (s.accept v).turns = s.turns := rfl
@[simp] theorem State.accept_reply (v : Word) : (s.accept v).reply = s.reply := rfl
@[simp] theorem State.accept_powerOns (v : Word) : (s.accept v).powerOns = s.powerOns := rfl
@[simp] theorem State.accept_busyReads (v : Word) : (s.accept v).busyReads = s.busyReads := rfl

@[simp] theorem State.softReset_param : (s.softReset).param = s.param := rfl
@[simp] theorem State.softReset_ie : (s.softReset).ie = false := rfl
@[simp] theorem State.softReset_tidinc : (s.softReset).tidinc = false := rfl
@[simp] theorem State.softReset_busy : (s.softReset).busy = false := rfl
@[simp] theorem State.softReset_done : (s.softReset).done = false := rfl
@[simp] theorem State.softReset_werr : (s.softReset).werr = false := rfl
@[simp] theorem State.softReset_err : (s.softReset).err = ErrCat.none := rfl
@[simp] theorem State.softReset_det : (s.softReset).det = ErrDet.none := rfl
@[simp] theorem State.softReset_lastop : (s.softReset).lastop = 0 := rfl
@[simp] theorem State.softReset_inLen : (s.softReset).inLen = 0 := rfl
@[simp] theorem State.softReset_outLen : (s.softReset).outLen = 0 := rfl
@[simp] theorem State.softReset_unit : (s.softReset).unit = 0 := rfl
@[simp] theorem State.softReset_tid : (s.softReset).tid = 0 := rfl
@[simp] theorem State.softReset_crcAcc : (s.softReset).crcAcc = 0xFFFF := rfl
@[simp] theorem State.softReset_lrcSum : (s.softReset).lrcSum = 0 := rfl
@[simp] theorem State.softReset_chkCalc : (s.softReset).chkCalc = 0 := rfl
@[simp] theorem State.softReset_chkRx : (s.softReset).chkRx = 0 := rfl
@[simp] theorem State.softReset_rxUnit : (s.softReset).rxUnit = 0 := rfl
@[simp] theorem State.softReset_rxTid : (s.softReset).rxTid = 0 := rfl
@[simp] theorem State.softReset_rxPid : (s.softReset).rxPid = 0 := rfl
@[simp] theorem State.softReset_rxLen : (s.softReset).rxLen = 0 := rfl
@[simp] theorem State.softReset_pending : (s.softReset).pending = 0 := rfl
@[simp] theorem State.softReset_mem : (s.softReset).mem = s.mem := rfl
@[simp] theorem State.softReset_base : (s.softReset).base = s.base := rfl
@[simp] theorem State.softReset_resetIn : (s.softReset).resetIn = s.resetIn := rfl
@[simp] theorem State.softReset_turns : (s.softReset).turns = s.turns := rfl
@[simp] theorem State.softReset_reply : (s.softReset).reply = s.reply := rfl
@[simp] theorem State.softReset_powerOns : (s.softReset).powerOns = s.powerOns := rfl
@[simp] theorem State.softReset_busyReads : (s.softReset).busyReads = s.busyReads := rfl

@[simp] theorem State.powerOnReset_param : (s.powerOnReset).param = s.param := rfl
@[simp] theorem State.powerOnReset_ie : (s.powerOnReset).ie = false := rfl
@[simp] theorem State.powerOnReset_tidinc : (s.powerOnReset).tidinc = false := rfl
@[simp] theorem State.powerOnReset_busy : (s.powerOnReset).busy = false := rfl
@[simp] theorem State.powerOnReset_done : (s.powerOnReset).done = false := rfl
@[simp] theorem State.powerOnReset_werr : (s.powerOnReset).werr = false := rfl
@[simp] theorem State.powerOnReset_err : (s.powerOnReset).err = ErrCat.none := rfl
@[simp] theorem State.powerOnReset_det : (s.powerOnReset).det = ErrDet.none := rfl
@[simp] theorem State.powerOnReset_lastop : (s.powerOnReset).lastop = 0 := rfl
@[simp] theorem State.powerOnReset_inLen : (s.powerOnReset).inLen = 0 := rfl
@[simp] theorem State.powerOnReset_outLen : (s.powerOnReset).outLen = 0 := rfl
@[simp] theorem State.powerOnReset_unit : (s.powerOnReset).unit = 0 := rfl
@[simp] theorem State.powerOnReset_tid : (s.powerOnReset).tid = 0 := rfl
@[simp] theorem State.powerOnReset_crcAcc : (s.powerOnReset).crcAcc = 0xFFFF := rfl
@[simp] theorem State.powerOnReset_lrcSum : (s.powerOnReset).lrcSum = 0 := rfl
@[simp] theorem State.powerOnReset_chkCalc : (s.powerOnReset).chkCalc = 0 := rfl
@[simp] theorem State.powerOnReset_chkRx : (s.powerOnReset).chkRx = 0 := rfl
@[simp] theorem State.powerOnReset_rxUnit : (s.powerOnReset).rxUnit = 0 := rfl
@[simp] theorem State.powerOnReset_rxTid : (s.powerOnReset).rxTid = 0 := rfl
@[simp] theorem State.powerOnReset_rxPid : (s.powerOnReset).rxPid = 0 := rfl
@[simp] theorem State.powerOnReset_rxLen : (s.powerOnReset).rxLen = 0 := rfl
@[simp] theorem State.powerOnReset_pending : (s.powerOnReset).pending = 0 := rfl
@[simp] theorem State.powerOnReset_mem : (s.powerOnReset).mem = [] := rfl
@[simp] theorem State.powerOnReset_base : (s.powerOnReset).base = s.base := rfl
@[simp] theorem State.powerOnReset_resetIn : (s.powerOnReset).resetIn = s.resetIn := rfl
@[simp] theorem State.powerOnReset_turns : (s.powerOnReset).turns = s.turns := rfl
@[simp] theorem State.powerOnReset_reply : (s.powerOnReset).reply = s.reply := rfl
@[simp] theorem State.powerOnReset_powerOns : (s.powerOnReset).powerOns = s.powerOns + 1 := rfl
@[simp] theorem State.powerOnReset_busyReads : (s.powerOnReset).busyReads = s.busyReads := rfl

@[simp] theorem State.dropWrite_param : (s.dropWrite).param = s.param := rfl
@[simp] theorem State.dropWrite_ie : (s.dropWrite).ie = s.ie := rfl
@[simp] theorem State.dropWrite_tidinc : (s.dropWrite).tidinc = s.tidinc := rfl
@[simp] theorem State.dropWrite_busy : (s.dropWrite).busy = s.busy := rfl
@[simp] theorem State.dropWrite_done : (s.dropWrite).done = s.done := rfl
@[simp] theorem State.dropWrite_werr : (s.dropWrite).werr = true := rfl
@[simp] theorem State.dropWrite_err : (s.dropWrite).err = s.err := rfl
@[simp] theorem State.dropWrite_det : (s.dropWrite).det = s.det := rfl
@[simp] theorem State.dropWrite_lastop : (s.dropWrite).lastop = s.lastop := rfl
@[simp] theorem State.dropWrite_inLen : (s.dropWrite).inLen = s.inLen := rfl
@[simp] theorem State.dropWrite_outLen : (s.dropWrite).outLen = s.outLen := rfl
@[simp] theorem State.dropWrite_unit : (s.dropWrite).unit = s.unit := rfl
@[simp] theorem State.dropWrite_tid : (s.dropWrite).tid = s.tid := rfl
@[simp] theorem State.dropWrite_crcAcc : (s.dropWrite).crcAcc = s.crcAcc := rfl
@[simp] theorem State.dropWrite_lrcSum : (s.dropWrite).lrcSum = s.lrcSum := rfl
@[simp] theorem State.dropWrite_chkCalc : (s.dropWrite).chkCalc = s.chkCalc := rfl
@[simp] theorem State.dropWrite_chkRx : (s.dropWrite).chkRx = s.chkRx := rfl
@[simp] theorem State.dropWrite_rxUnit : (s.dropWrite).rxUnit = s.rxUnit := rfl
@[simp] theorem State.dropWrite_rxTid : (s.dropWrite).rxTid = s.rxTid := rfl
@[simp] theorem State.dropWrite_rxPid : (s.dropWrite).rxPid = s.rxPid := rfl
@[simp] theorem State.dropWrite_rxLen : (s.dropWrite).rxLen = s.rxLen := rfl
@[simp] theorem State.dropWrite_pending : (s.dropWrite).pending = s.pending := rfl
@[simp] theorem State.dropWrite_mem : (s.dropWrite).mem = s.mem := rfl
@[simp] theorem State.dropWrite_base : (s.dropWrite).base = s.base := rfl
@[simp] theorem State.dropWrite_resetIn : (s.dropWrite).resetIn = s.resetIn := rfl
@[simp] theorem State.dropWrite_turns : (s.dropWrite).turns = s.turns := rfl
@[simp] theorem State.dropWrite_reply : (s.dropWrite).reply = s.reply := rfl
@[simp] theorem State.dropWrite_powerOns : (s.dropWrite).powerOns = s.powerOns := rfl
@[simp] theorem State.dropWrite_busyReads : (s.dropWrite).busyReads = s.busyReads := rfl

@[simp] theorem State.setCtrl_param (v : Word) : (s.setCtrl v).param = s.param := rfl
@[simp] theorem State.setCtrl_ie (v : Word) : (s.setCtrl v).ie = v.getLsbD 1 := rfl
@[simp] theorem State.setCtrl_tidinc (v : Word) : (s.setCtrl v).tidinc = v.getLsbD 2 := rfl
@[simp] theorem State.setCtrl_busy (v : Word) : (s.setCtrl v).busy = s.busy := rfl
@[simp] theorem State.setCtrl_done (v : Word) : (s.setCtrl v).done = s.done := rfl
@[simp] theorem State.setCtrl_werr (v : Word) : (s.setCtrl v).werr = s.werr := rfl
@[simp] theorem State.setCtrl_err (v : Word) : (s.setCtrl v).err = s.err := rfl
@[simp] theorem State.setCtrl_det (v : Word) : (s.setCtrl v).det = s.det := rfl
@[simp] theorem State.setCtrl_lastop (v : Word) : (s.setCtrl v).lastop = s.lastop := rfl
@[simp] theorem State.setCtrl_inLen (v : Word) : (s.setCtrl v).inLen = s.inLen := rfl
@[simp] theorem State.setCtrl_outLen (v : Word) : (s.setCtrl v).outLen = s.outLen := rfl
@[simp] theorem State.setCtrl_unit (v : Word) : (s.setCtrl v).unit = s.unit := rfl
@[simp] theorem State.setCtrl_tid (v : Word) : (s.setCtrl v).tid = s.tid := rfl
@[simp] theorem State.setCtrl_crcAcc (v : Word) : (s.setCtrl v).crcAcc = s.crcAcc := rfl
@[simp] theorem State.setCtrl_lrcSum (v : Word) : (s.setCtrl v).lrcSum = s.lrcSum := rfl
@[simp] theorem State.setCtrl_chkCalc (v : Word) : (s.setCtrl v).chkCalc = s.chkCalc := rfl
@[simp] theorem State.setCtrl_chkRx (v : Word) : (s.setCtrl v).chkRx = s.chkRx := rfl
@[simp] theorem State.setCtrl_rxUnit (v : Word) : (s.setCtrl v).rxUnit = s.rxUnit := rfl
@[simp] theorem State.setCtrl_rxTid (v : Word) : (s.setCtrl v).rxTid = s.rxTid := rfl
@[simp] theorem State.setCtrl_rxPid (v : Word) : (s.setCtrl v).rxPid = s.rxPid := rfl
@[simp] theorem State.setCtrl_rxLen (v : Word) : (s.setCtrl v).rxLen = s.rxLen := rfl
@[simp] theorem State.setCtrl_pending (v : Word) : (s.setCtrl v).pending = s.pending := rfl
@[simp] theorem State.setCtrl_mem (v : Word) : (s.setCtrl v).mem = s.mem := rfl
@[simp] theorem State.setCtrl_base (v : Word) : (s.setCtrl v).base = s.base := rfl
@[simp] theorem State.setCtrl_resetIn (v : Word) : (s.setCtrl v).resetIn = s.resetIn := rfl
@[simp] theorem State.setCtrl_turns (v : Word) : (s.setCtrl v).turns = s.turns := rfl
@[simp] theorem State.setCtrl_reply (v : Word) : (s.setCtrl v).reply = s.reply := rfl
@[simp] theorem State.setCtrl_powerOns (v : Word) : (s.setCtrl v).powerOns = s.powerOns := rfl
@[simp] theorem State.setCtrl_busyReads (v : Word) : (s.setCtrl v).busyReads = s.busyReads := rfl

@[simp] theorem State.clearFlags_param (v : Word) : (s.clearFlags v).param = s.param := rfl
@[simp] theorem State.clearFlags_ie (v : Word) : (s.clearFlags v).ie = s.ie := rfl
@[simp] theorem State.clearFlags_tidinc (v : Word) : (s.clearFlags v).tidinc = s.tidinc := rfl
@[simp] theorem State.clearFlags_busy (v : Word) : (s.clearFlags v).busy = s.busy := rfl
@[simp] theorem State.clearFlags_done (v : Word) : (s.clearFlags v).done = (s.done && !v.getLsbD 1) := rfl
@[simp] theorem State.clearFlags_werr (v : Word) : (s.clearFlags v).werr = (s.werr && !v.getLsbD 2) := rfl
@[simp] theorem State.clearFlags_err (v : Word) : (s.clearFlags v).err = s.err := rfl
@[simp] theorem State.clearFlags_det (v : Word) : (s.clearFlags v).det = s.det := rfl
@[simp] theorem State.clearFlags_lastop (v : Word) : (s.clearFlags v).lastop = s.lastop := rfl
@[simp] theorem State.clearFlags_inLen (v : Word) : (s.clearFlags v).inLen = s.inLen := rfl
@[simp] theorem State.clearFlags_outLen (v : Word) : (s.clearFlags v).outLen = s.outLen := rfl
@[simp] theorem State.clearFlags_unit (v : Word) : (s.clearFlags v).unit = s.unit := rfl
@[simp] theorem State.clearFlags_tid (v : Word) : (s.clearFlags v).tid = s.tid := rfl
@[simp] theorem State.clearFlags_crcAcc (v : Word) : (s.clearFlags v).crcAcc = s.crcAcc := rfl
@[simp] theorem State.clearFlags_lrcSum (v : Word) : (s.clearFlags v).lrcSum = s.lrcSum := rfl
@[simp] theorem State.clearFlags_chkCalc (v : Word) : (s.clearFlags v).chkCalc = s.chkCalc := rfl
@[simp] theorem State.clearFlags_chkRx (v : Word) : (s.clearFlags v).chkRx = s.chkRx := rfl
@[simp] theorem State.clearFlags_rxUnit (v : Word) : (s.clearFlags v).rxUnit = s.rxUnit := rfl
@[simp] theorem State.clearFlags_rxTid (v : Word) : (s.clearFlags v).rxTid = s.rxTid := rfl
@[simp] theorem State.clearFlags_rxPid (v : Word) : (s.clearFlags v).rxPid = s.rxPid := rfl
@[simp] theorem State.clearFlags_rxLen (v : Word) : (s.clearFlags v).rxLen = s.rxLen := rfl
@[simp] theorem State.clearFlags_pending (v : Word) : (s.clearFlags v).pending = s.pending := rfl
@[simp] theorem State.clearFlags_mem (v : Word) : (s.clearFlags v).mem = s.mem := rfl
@[simp] theorem State.clearFlags_base (v : Word) : (s.clearFlags v).base = s.base := rfl
@[simp] theorem State.clearFlags_resetIn (v : Word) : (s.clearFlags v).resetIn = s.resetIn := rfl
@[simp] theorem State.clearFlags_turns (v : Word) : (s.clearFlags v).turns = s.turns := rfl
@[simp] theorem State.clearFlags_reply (v : Word) : (s.clearFlags v).reply = s.reply := rfl
@[simp] theorem State.clearFlags_powerOns (v : Word) : (s.clearFlags v).powerOns = s.powerOns := rfl
@[simp] theorem State.clearFlags_busyReads (v : Word) : (s.clearFlags v).busyReads = s.busyReads := rfl

@[simp] theorem State.feedCrc_param (b : Byte) : (s.feedCrc b).param = s.param := rfl
@[simp] theorem State.feedCrc_ie (b : Byte) : (s.feedCrc b).ie = s.ie := rfl
@[simp] theorem State.feedCrc_tidinc (b : Byte) : (s.feedCrc b).tidinc = s.tidinc := rfl
@[simp] theorem State.feedCrc_busy (b : Byte) : (s.feedCrc b).busy = s.busy := rfl
@[simp] theorem State.feedCrc_done (b : Byte) : (s.feedCrc b).done = s.done := rfl
@[simp] theorem State.feedCrc_werr (b : Byte) : (s.feedCrc b).werr = s.werr := rfl
@[simp] theorem State.feedCrc_err (b : Byte) : (s.feedCrc b).err = s.err := rfl
@[simp] theorem State.feedCrc_det (b : Byte) : (s.feedCrc b).det = s.det := rfl
@[simp] theorem State.feedCrc_lastop (b : Byte) : (s.feedCrc b).lastop = s.lastop := rfl
@[simp] theorem State.feedCrc_inLen (b : Byte) : (s.feedCrc b).inLen = s.inLen := rfl
@[simp] theorem State.feedCrc_outLen (b : Byte) : (s.feedCrc b).outLen = s.outLen := rfl
@[simp] theorem State.feedCrc_unit (b : Byte) : (s.feedCrc b).unit = s.unit := rfl
@[simp] theorem State.feedCrc_tid (b : Byte) : (s.feedCrc b).tid = s.tid := rfl
@[simp] theorem State.feedCrc_crcAcc (b : Byte) : (s.feedCrc b).crcAcc = crcStep s.crcAcc b := rfl
@[simp] theorem State.feedCrc_lrcSum (b : Byte) : (s.feedCrc b).lrcSum = s.lrcSum := rfl
@[simp] theorem State.feedCrc_chkCalc (b : Byte) : (s.feedCrc b).chkCalc = s.chkCalc := rfl
@[simp] theorem State.feedCrc_chkRx (b : Byte) : (s.feedCrc b).chkRx = s.chkRx := rfl
@[simp] theorem State.feedCrc_rxUnit (b : Byte) : (s.feedCrc b).rxUnit = s.rxUnit := rfl
@[simp] theorem State.feedCrc_rxTid (b : Byte) : (s.feedCrc b).rxTid = s.rxTid := rfl
@[simp] theorem State.feedCrc_rxPid (b : Byte) : (s.feedCrc b).rxPid = s.rxPid := rfl
@[simp] theorem State.feedCrc_rxLen (b : Byte) : (s.feedCrc b).rxLen = s.rxLen := rfl
@[simp] theorem State.feedCrc_pending (b : Byte) : (s.feedCrc b).pending = s.pending := rfl
@[simp] theorem State.feedCrc_mem (b : Byte) : (s.feedCrc b).mem = s.mem := rfl
@[simp] theorem State.feedCrc_base (b : Byte) : (s.feedCrc b).base = s.base := rfl
@[simp] theorem State.feedCrc_resetIn (b : Byte) : (s.feedCrc b).resetIn = s.resetIn := rfl
@[simp] theorem State.feedCrc_turns (b : Byte) : (s.feedCrc b).turns = s.turns := rfl
@[simp] theorem State.feedCrc_reply (b : Byte) : (s.feedCrc b).reply = s.reply := rfl
@[simp] theorem State.feedCrc_powerOns (b : Byte) : (s.feedCrc b).powerOns = s.powerOns := rfl
@[simp] theorem State.feedCrc_busyReads (b : Byte) : (s.feedCrc b).busyReads = s.busyReads := rfl

@[simp] theorem State.feedLrc_param (b : Byte) : (s.feedLrc b).param = s.param := rfl
@[simp] theorem State.feedLrc_ie (b : Byte) : (s.feedLrc b).ie = s.ie := rfl
@[simp] theorem State.feedLrc_tidinc (b : Byte) : (s.feedLrc b).tidinc = s.tidinc := rfl
@[simp] theorem State.feedLrc_busy (b : Byte) : (s.feedLrc b).busy = s.busy := rfl
@[simp] theorem State.feedLrc_done (b : Byte) : (s.feedLrc b).done = s.done := rfl
@[simp] theorem State.feedLrc_werr (b : Byte) : (s.feedLrc b).werr = s.werr := rfl
@[simp] theorem State.feedLrc_err (b : Byte) : (s.feedLrc b).err = s.err := rfl
@[simp] theorem State.feedLrc_det (b : Byte) : (s.feedLrc b).det = s.det := rfl
@[simp] theorem State.feedLrc_lastop (b : Byte) : (s.feedLrc b).lastop = s.lastop := rfl
@[simp] theorem State.feedLrc_inLen (b : Byte) : (s.feedLrc b).inLen = s.inLen := rfl
@[simp] theorem State.feedLrc_outLen (b : Byte) : (s.feedLrc b).outLen = s.outLen := rfl
@[simp] theorem State.feedLrc_unit (b : Byte) : (s.feedLrc b).unit = s.unit := rfl
@[simp] theorem State.feedLrc_tid (b : Byte) : (s.feedLrc b).tid = s.tid := rfl
@[simp] theorem State.feedLrc_crcAcc (b : Byte) : (s.feedLrc b).crcAcc = s.crcAcc := rfl
@[simp] theorem State.feedLrc_lrcSum (b : Byte) : (s.feedLrc b).lrcSum = s.lrcSum + b := rfl
@[simp] theorem State.feedLrc_chkCalc (b : Byte) : (s.feedLrc b).chkCalc = s.chkCalc := rfl
@[simp] theorem State.feedLrc_chkRx (b : Byte) : (s.feedLrc b).chkRx = s.chkRx := rfl
@[simp] theorem State.feedLrc_rxUnit (b : Byte) : (s.feedLrc b).rxUnit = s.rxUnit := rfl
@[simp] theorem State.feedLrc_rxTid (b : Byte) : (s.feedLrc b).rxTid = s.rxTid := rfl
@[simp] theorem State.feedLrc_rxPid (b : Byte) : (s.feedLrc b).rxPid = s.rxPid := rfl
@[simp] theorem State.feedLrc_rxLen (b : Byte) : (s.feedLrc b).rxLen = s.rxLen := rfl
@[simp] theorem State.feedLrc_pending (b : Byte) : (s.feedLrc b).pending = s.pending := rfl
@[simp] theorem State.feedLrc_mem (b : Byte) : (s.feedLrc b).mem = s.mem := rfl
@[simp] theorem State.feedLrc_base (b : Byte) : (s.feedLrc b).base = s.base := rfl
@[simp] theorem State.feedLrc_resetIn (b : Byte) : (s.feedLrc b).resetIn = s.resetIn := rfl
@[simp] theorem State.feedLrc_turns (b : Byte) : (s.feedLrc b).turns = s.turns := rfl
@[simp] theorem State.feedLrc_reply (b : Byte) : (s.feedLrc b).reply = s.reply := rfl
@[simp] theorem State.feedLrc_powerOns (b : Byte) : (s.feedLrc b).powerOns = s.powerOns := rfl
@[simp] theorem State.feedLrc_busyReads (b : Byte) : (s.feedLrc b).busyReads = s.busyReads := rfl

/-- The end of a body that ends normally (44_control.md R203). -/
@[simp] theorem complete_ok : complete (.ok s) = s.finish .none .none := rfl

/-- The end of a body that raises an error (44_control.md R203, 60_exceptions.md R226). -/
@[simp] theorem complete_raiseErr (c : ErrCat) (d : ErrDet) :
    complete (raiseErr s c d) = { s.finish c d with outLen := 0 } := rfl

end Sys2Proof.Machine
end

