-- ==== Sys2Proof/Laws/Memory.lean ====
section
/-! SUPPORT. The laws of the buffer memory: a read after a write, and that every memory operation keeps the canonical form. -/

namespace Sys2Proof.Machine

theorem Memory.lookup_insert_self (m : Memory) (a : Nat) (b : Byte) :
    Memory.lookup (Memory.insert m a b) a = some b := by
  induction m with
  | nil => simp [Memory.insert, Memory.lookup]
  | cons c m ih =>
    obtain ⟨k, c⟩ := c
    simp only [Memory.insert]
    split
    · simp [Memory.lookup]
    · split
      · simp [Memory.lookup]
      · rename_i h
        rw [Memory.lookup, if_neg (fun e => h e.symm), ih]

theorem Memory.lookup_insert_other (m : Memory) (a a' : Nat) (b : Byte) (h : a' ≠ a) :
    Memory.lookup (Memory.insert m a b) a' = Memory.lookup m a' := by
  induction m with
  | nil => simp [Memory.insert, Memory.lookup, h.symm]
  | cons c m ih =>
    obtain ⟨k, c⟩ := c
    simp only [Memory.insert]
    split
    · simp [Memory.lookup, h.symm]
    · split
      · subst k; simp [Memory.lookup, h.symm]
      · simp only [Memory.lookup, ih]

theorem Memory.lookup_insertBytes_outside (bs : List Byte) (m : Memory) (a a' : Nat)
    (h : a' < a ∨ a + bs.length ≤ a') :
    Memory.lookup (Memory.insertBytes m a bs) a' = Memory.lookup m a' := by
  induction bs generalizing m a with
  | nil => rfl
  | cons b bs ih =>
    simp only [List.length_cons] at h
    rw [Memory.insertBytes, ih _ _ (by omega), Memory.lookup_insert_other _ _ _ _ (by omega)]

theorem Memory.lookup_insertBytes_inside (bs : List Byte) (m : Memory) (a i : Nat) (h : i < bs.length) :
    Memory.lookup (Memory.insertBytes m a bs) (a + i) = some bs[i] := by
  induction bs generalizing m a i with
  | nil => simp at h
  | cons b bs ih =>
    cases i with
    | zero =>
      rw [Memory.insertBytes, Memory.lookup_insertBytes_outside _ _ _ _ (by omega)]
      simp [Memory.lookup_insert_self]
    | succ i =>
      rw [Memory.insertBytes, show a + (i + 1) = (a + 1) + i by omega,
        ih _ _ _ (by simpa using h)]
      rfl

/-- The entries of a memory after one write. -/
theorem Memory.mem_insert (m : Memory) (a : Nat) (b : Byte) (c : Host.Cell) (h : c ∈ Memory.insert m a b) :
    c = (a, b) ∨ c ∈ m := by
  induction m with
  | nil => simpa [Memory.insert] using h
  | cons d m ih =>
    obtain ⟨k, d⟩ := d
    simp only [Memory.insert] at h
    split at h
    · simpa using h
    · split at h
      · simp only [List.mem_cons] at h ⊢
        tauto
      · simp only [List.mem_cons] at h ⊢
        tauto

/-- The offsets of a memory after a byte string was written. -/
theorem Memory.mem_insertBytes (bs : List Byte) (m : Memory) (a : Nat) (c : Host.Cell)
    (h : c ∈ Memory.insertBytes m a bs) : (a ≤ c.1 ∧ c.1 < a + bs.length) ∨ c ∈ m := by
  induction bs generalizing m a with
  | nil => exact .inr h
  | cons b bs ih =>
    simp only [List.length_cons]
    rcases ih _ _ h with h' | h'
    · left; omega
    · rcases Memory.mem_insert m a b c h' with rfl | h''
      · left; simp
      · exact .inr h''

theorem Memory.insert_keeps_wf (m : Memory) (a : Nat) (b : Byte) (h : Memory.wf m) :
    Memory.wf (Memory.insert m a b) := by
  induction m with
  | nil => simp [Memory.insert, Memory.wf]
  | cons d m ih =>
    obtain ⟨k, d⟩ := d
    obtain ⟨hd, hm⟩ := List.pairwise_cons.1 h
    simp only [Memory.insert]
    split
    · rename_i hlt
      refine List.pairwise_cons.2 ⟨fun c hc => ?_, h⟩
      rcases List.mem_cons.1 hc with rfl | hc
      · exact hlt
      · exact lt_trans hlt (hd c hc)
    · split
      · rename_i he
        subst he
        exact List.pairwise_cons.2 ⟨hd, hm⟩
      · refine List.pairwise_cons.2 ⟨fun c hc => ?_, ih hm⟩
        rcases Memory.mem_insert m a b c hc with rfl | hc
        · simp; omega
        · exact hd c hc

theorem Memory.insertBytes_keeps_wf (bs : List Byte) (m : Memory) (a : Nat) (h : Memory.wf m) :
    Memory.wf (Memory.insertBytes m a bs) := by
  induction bs generalizing m a with
  | nil => exact h
  | cons b bs ih => exact ih _ _ (Memory.insert_keeps_wf m a b h)

theorem reset_memory_wf : Memory.wf State.reset.mem := List.Pairwise.nil

/-- A byte read depends on the memory and on the index of the power-on free values only. -/
theorem State.readByte_congr (s t : State) (a : Nat) (hm : Memory.lookup t.mem a = Memory.lookup s.mem a)
    (hp : t.powerOns = s.powerOns) : t.readByte a = s.readByte a := by
  simp only [State.readByte, hm, hp]

theorem State.readByte_storeBytes_outside (s : State) (a : Nat) (bs : List Byte) (a' : Nat)
    (h : a' < a ∨ a + bs.length ≤ a') : (s.storeBytes a bs).readByte a' = s.readByte a' :=
  State.readByte_congr _ _ _ (Memory.lookup_insertBytes_outside bs s.mem a a' h) rfl

theorem State.readByte_storeBytes_inside (s : State) (a : Nat) (bs : List Byte) (i : Nat) (h : i < bs.length) :
    (s.storeBytes a bs).readByte (a + i) = bs[i] := by
  simp [State.readByte, State.storeBytes, Memory.lookup_insertBytes_inside bs s.mem a i h]

@[simp] theorem State.length_readBytes (s : State) (a n : Nat) : (s.readBytes a n).length = n := by
  simp [State.readBytes]

theorem State.getElem_readBytes (s : State) (a n i : Nat) (h : i < (s.readBytes a n).length) :
    (s.readBytes a n)[i] = s.readByte (a + i) := by
  simp [State.readBytes]

/-- Reading back a string of bytes that is known byte by byte. -/
theorem State.readBytes_eq (s : State) (a : Nat) (bs : List Byte)
    (h : ∀ i, (hi : i < bs.length) → s.readByte (a + i) = bs[i]) : s.readBytes a bs.length = bs := by
  apply List.ext_getElem (by simp)
  intro i h1 h2
  rw [State.getElem_readBytes, h i h2]

end Sys2Proof.Machine
end

