-- ==== Sys2Proof/Laws/Codec.lean ====
section
/-! SUPPORT. Small laws of the codec's pure functions: lengths, the hexadecimal digits, and the register map. -/

namespace Sys2Proof.Machine

@[simp] theorem length_be16 (v : Half) : (be16 v).length = 2 := rfl

@[simp] theorem length_le16 (v : Half) : (le16 v).length = 2 := rfl

@[simp] theorem length_unpackWord (v : Word) : (unpackWord v).length = 4 := rfl

theorem half_be16 (v : Half) : half (v.extractLsb' 8 8) (v.extractLsb' 0 8) = v := by
  apply BitVec.eq_of_getLsbD_eq
  intro i hi
  simp only [half, BitVec.getLsbD_append, BitVec.getLsbD_extractLsb']
  by_cases h : i < 8
  · simp [h]
  · simp [h, show i - 8 < 8 by omega, show 8 + (i - 8) = i by omega]

@[simp] theorem hexEnc_nil : hexEnc [] = [] := rfl

theorem hexEnc_cons (b : Byte) (s : List Byte) :
    hexEnc (b :: s) = hexChar (b.extractLsb' 4 4) :: hexChar (b.extractLsb' 0 4) :: hexEnc s := rfl

@[simp] theorem length_hexEnc (s : List Byte) : (hexEnc s).length = 2 * s.length := by
  induction s with
  | nil => rfl
  | cons b s ih => simp [hexEnc_cons, ih]; omega

/-- `hex_val` undoes `hex_char` (40_bytes_and_checksum.md R100, R102). -/
theorem hexVal_hexChar : ∀ n : BitVec 4, hexVal (hexChar n) = some n := by decide

/-- Every result of `hexPairs` is half as long as its text. -/
theorem length_of_hexPairs : (t d : List Byte) → hexPairs t = some d → t.length = 2 * d.length
  | [], d, h => by simp [hexPairs] at h; simp [h]
  | [_], d, h => by simp [hexPairs] at h
  | a :: b :: t, d, h => by
    simp only [hexPairs] at h
    split at h
    · rename_i hi lo r _ _ hr
      have := length_of_hexPairs t r hr
      injection h with h
      subst h
      simp only [List.length_cons]
      omega
    · exact absurd h (by simp)

/-- Hexadecimal text that decodes has twice as many characters as bytes (R103). -/
theorem length_of_hexDec (t d : List Byte) (h : hexDec t = .ok d) : t.length = 2 * d.length := by
  simp only [hexDec] at h
  split at h
  · exact absurd h (by simp)
  · split at h
    · rename_i d' hd
      injection h with h
      subst h
      exact length_of_hexPairs t d' hd
    · exact absurd h (by simp)

@[simp] theorem length_rtuFrame (u : Byte) (p : List Byte) : (rtuFrame u p).length = p.length + 3 := by
  simp [rtuFrame]

@[simp] theorem length_ascFrame (u : Byte) (p : List Byte) : (ascFrame u p).length = 2 * p.length + 7 := by
  simp [ascFrame]; omega

@[simp] theorem length_lpfFrame (x : Half) (u : Byte) (p : List Byte) :
    (lpfFrame x u p).length = p.length + 7 := by
  simp [lpfFrame]; omega

@[simp] theorem State.length_ibufSlice (s : State) (i j : Nat) : (s.ibufSlice i j).length = j - i := by
  simp [State.ibufSlice]

@[simp] theorem State.length_obufSlice (s : State) (i j : Nat) : (s.obufSlice i j).length = j - i := by
  simp [State.obufSlice]

@[simp] theorem State.length_input (s : State) : s.input.length = s.inCount := by
  simp [State.input]

@[simp] theorem length_slice (s : List Byte) (i j : Nat) : (slice s i j).length = min (j - i) (s.length - i) := by
  simp [slice]

/-- The register map reads back (10_state.md section 3). -/
@[simp] theorem regAt_regOffset (r : Reg) : regAt (regOffset r) = some r := by cases r <;> rfl

/-- An offset that selects a register is that register's offset. -/
theorem regOffset_of_regAt (off : Nat) (r : Reg) (h : regAt off = some r) : off = regOffset r := by
  unfold regAt at h
  split at h <;> first | (injection h with h; subst h; rfl) | exact absurd h (by simp)

end Sys2Proof.Machine
end

