-- ==== Sys2Proof/Laws/Exec.lean ====
section
/-! SUPPORT. What an instruction can do, said once: the operands it reads, and every way a command can end. -/

namespace Sys2Proof.Machine

theorem State.inputBytes_eq (s : State) : s.inputBytes = s.input := by
  simp only [State.inputBytes, State.input, State.ibufSlice, State.readBytes, State.inCount, Nat.sub_zero,
    Nat.add_zero, List.range'_eq_map_range, List.map_map]
  rfl

@[simp] theorem State.length_inputBytes (s : State) : s.inputBytes.length = s.inLen.toNat := by
  simp [State.inputBytes]

theorem State.getElem_inputBytes (s : State) (i : Nat) (h : i < s.inputBytes.length) :
    s.inputBytes[i] = s.ibufAt i := by
  simp [State.inputBytes]

theorem State.getElem_ibufSlice (s : State) (i j k : Nat) (h : k < (s.ibufSlice i j).length) :
    (s.ibufSlice i j)[k] = s.ibufAt (i + k) := by
  simp [State.ibufSlice, State.getElem_readBytes, State.ibufAt, Nat.add_assoc]

/-- A slice of IBUF within the input is that slice of the input bytes. -/
theorem State.ibufSlice_eq (s : State) (i j : Nat) (hj : j ≤ s.inLen.toNat) :
    s.ibufSlice i j = (s.inputBytes.take j).drop i := by
  apply List.ext_getElem (by simp; omega)
  intro k h1 h2
  simp [State.getElem_ibufSlice, State.inputBytes]

theorem State.inCount_eq (s : State) : s.inCount = s.inLen.toNat := rfl

theorem State.bufSize_lt (s : State) : s.bufSize < 65536 := s.param.isLt

/-- The output of a successful command, and the rest of the state. -/
theorem outputIs_putOutput (s : State) (out : List Byte) : outputIs s (s.putOutput out) out :=
  ⟨fun i hi => State.readByte_storeBytes_inside s Config.obufBase out i hi,
    fun a ha => State.readByte_storeBytes_outside s Config.obufBase out a ha⟩

/-- `outputIs` depends on the memory and the power-on index of the later state only. -/
theorem outputIs_congr (s t u : State) (out : List Byte) (hm : u.mem = t.mem) (hp : u.powerOns = t.powerOns)
    (h : outputIs s t out) : outputIs s u out := by
  simp only [outputIs, State.obufAt, State.readByte, hm, hp] at *
  exact h

/-- The three ways a command ends: a precise error (60_exceptions.md R226), a success without output, and a success with
output in OBUF. -/
inductive CommandEnd (i : Instr) (s t : State) : Prop where
  | failed (c : ErrCat) (d : ErrDet) (cc rx : Half)
      (eq : t = { s.finish c d with outLen := 0, chkCalc := cc, chkRx := rx })
      (cat : c = detCategory d) (isErr : c ≠ .none)
      (kept : c ≠ .checksum → cc = s.chkCalc ∧ rx = s.chkRx)
  | quiet (a : Half) (l : Byte)
      (eq : t = { s.finish .none .none with crcAcc := a, lrcSum := l })
      (frame : isFrameCommand i = false)
      (crc : a ≠ s.crcAcc → i = .crcInit ∨ i = .crcBuf)
      (lrc : l ≠ s.lrcSum → i = .lrcInit ∨ i = .lrcBuf)
  | output (out : List Byte) (x cc rx rt rp rl : Half) (ru : Byte)
      (eq : t = { (s.putOutput out).finish .none .none with
        tid := x, chkCalc := cc, chkRx := rx, rxUnit := ru, rxTid := rt, rxPid := rp, rxLen := rl })
      (fits : out.length ≤ s.bufSize)
      (frame : isFrameCommand i = true)
      (tid : x ≠ s.tid → i = .lpfBuild)

theorem rtuBuild_end (s : State) : CommandEnd .rtuBuild s (complete (rtuBuildBody s)) := by
  unfold rtuBuildBody
  split
  · exact .failed .range .inlen s.chkCalc s.chkRx rfl rfl (by simp) (by simp)
  · split
    · exact .failed .range .outlen s.chkCalc s.chkRx rfl rfl (by simp) (by simp)
    · exact .output _ s.tid _ s.chkRx s.rxTid s.rxPid s.rxLen s.rxUnit rfl (by simp; omega) rfl (by simp)

theorem rtuParse_end (s : State) : CommandEnd .rtuParse s (complete (rtuParseBody s)) := by
  unfold rtuParseBody
  split
  · exact .failed .range .inlen s.chkCalc s.chkRx rfl rfl (by simp) (by simp)
  · split
    · exact .failed .length .short s.chkCalc s.chkRx rfl rfl (by simp) (by simp)
    · simp only [rtuCheck]
      split
      · exact .output _ s.tid _ _ s.rxTid s.rxPid s.rxLen _ rfl (by simp; omega) rfl (by simp)
      · exact .failed .checksum .crc _ _ rfl rfl (by simp) (by simp)

theorem ascBuild_end (s : State) : CommandEnd .ascBuild s (complete (ascBuildBody s)) := by
  unfold ascBuildBody
  split
  · exact .failed .range .inlen s.chkCalc s.chkRx rfl rfl (by simp) (by simp)
  · split
    · exact .failed .range .outlen s.chkCalc s.chkRx rfl rfl (by simp) (by simp)
    · exact .output _ s.tid _ s.chkRx s.rxTid s.rxPid s.rxLen s.rxUnit rfl (by simp; omega) rfl (by simp)

theorem ascParse_end (s : State) : CommandEnd .ascParse s (complete (ascParseBody s)) := by
  simp only [ascParseBody]
  split
  · exact .failed .range .inlen s.chkCalc s.chkRx rfl rfl (by simp) (by simp)
  split
  · exact .failed .length .short s.chkCalc s.chkRx rfl rfl (by simp) (by simp)
  split
  · exact .failed .framing .start s.chkCalc s.chkRx rfl rfl (by simp) (by simp)
  split
  · exact .failed .framing .endMark s.chkCalc s.chkRx rfl rfl (by simp) (by simp)
  split
  · rename_i e _
    cases e <;> exact .failed .framing _ s.chkCalc s.chkRx rfl rfl (by simp) (by simp)
  · rename_i d hd
    have hl := length_of_hexDec _ _ hd
    simp only [State.length_ibufSlice] at hl
    simp only [ascCheck]
    split
    · exact .output _ s.tid _ _ s.rxTid s.rxPid s.rxLen _ rfl (by simp; omega) rfl (by simp)
    · exact .failed .checksum .lrc _ _ rfl rfl (by simp) (by simp)

theorem lpfBuild_end (s : State) : CommandEnd .lpfBuild s (complete (lpfBuildBody s)) := by
  unfold lpfBuildBody
  split
  · exact .failed .range .inlen s.chkCalc s.chkRx rfl rfl (by simp) (by simp)
  · split
    · exact .failed .range .outlen s.chkCalc s.chkRx rfl rfl (by simp) (by simp)
    · exact .output _ _ s.chkCalc s.chkRx s.rxTid s.rxPid s.rxLen s.rxUnit rfl (by simp; omega) rfl (by simp)

theorem lpfParse_end (s : State) : CommandEnd .lpfParse s (complete (lpfParseBody s)) := by
  simp only [lpfParseBody]
  split
  · exact .failed .range .inlen s.chkCalc s.chkRx rfl rfl (by simp) (by simp)
  split
  · exact .failed .length .short s.chkCalc s.chkRx rfl rfl (by simp) (by simp)
  split
  · exact .failed .framing .lenfield s.chkCalc s.chkRx rfl rfl (by simp) (by simp)
  · exact .output _ s.tid s.chkCalc s.chkRx _ _ _ _ rfl (by simp; omega) rfl (by simp)

theorem crcBuf_end (s : State) : CommandEnd .crcBuf s (complete (crcBufBody s)) := by
  unfold crcBufBody
  split
  · exact .failed .range .inlen s.chkCalc s.chkRx rfl rfl (by simp) (by simp)
  · exact .quiet _ s.lrcSum rfl rfl (by simp) (by simp)

theorem lrcBuf_end (s : State) : CommandEnd .lrcBuf s (complete (lrcBufBody s)) := by
  unfold lrcBufBody
  split
  · exact .failed .range .inlen s.chkCalc s.chkRx rfl rfl (by simp) (by simp)
  · exact .quiet s.crcAcc _ rfl rfl (by simp) (by simp)

/-- Every command ends in one of the three ways. -/
theorem exec_command_ends (i : Instr) (s t : State) (hc : isCommand i = true) (h : exec i s = .next t) :
    CommandEnd i s t := by
  have e : ∀ r, completion r = .next t → t = complete r := fun r hr => by
    injection hr with hr
    exact hr.symm
  cases i with
  | nop => rw [e _ h]; exact .quiet s.crcAcc s.lrcSum rfl rfl (by simp) (by simp)
  | crcInit => rw [e _ h]; exact .quiet _ s.lrcSum rfl rfl (by simp) (by simp)
  | crcBuf => rw [e _ h]; exact crcBuf_end s
  | lrcInit => rw [e _ h]; exact .quiet s.crcAcc _ rfl rfl (by simp) (by simp)
  | lrcBuf => rw [e _ h]; exact lrcBuf_end s
  | rtuBuild => rw [e _ h]; exact rtuBuild_end s
  | rtuParse => rw [e _ h]; exact rtuParse_end s
  | ascBuild => rw [e _ h]; exact ascBuild_end s
  | ascParse => rw [e _ h]; exact ascParse_end s
  | lpfBuild => rw [e _ h]; exact lpfBuild_end s
  | lpfParse => rw [e _ h]; exact lpfParse_end s
  | reservedB | reservedC | reservedD | reservedE | reservedF =>
    rw [e _ h]; exact .failed .illegal .opcode s.chkCalc s.chkRx rfl rfl (by simp) (by simp)
  | illegalRsvbits _ _ =>
    rw [e _ h]; exact .failed .illegal .rsvbits s.chkCalc s.chkRx rfl rfl (by simp) (by simp)
  | crcDin _ _ => simp [isCommand] at hc
  | lrcDin _ _ => simp [isCommand] at hc

/-- A port write changes its own accumulator, or WERR when a command runs. -/
theorem exec_port_ends (i : Instr) (s t : State) (hc : isCommand i = false) (h : exec i s = .next t) :
    (s.busy = true ∧ t = s.dropWrite) ∨
      (s.busy = false ∧ ((∃ b g, i = .crcDin b g ∧ t = s.feedCrc b) ∨ ∃ b g, i = .lrcDin b g ∧ t = s.feedLrc b)) := by
  cases i with
  | crcDin b g =>
    injection h with h
    cases hb : s.busy <;> simp only [hb] at h
    · exact .inr ⟨rfl, .inl ⟨b, g, rfl, h.symm⟩⟩
    · exact .inl ⟨rfl, h.symm⟩
  | lrcDin b g =>
    injection h with h
    cases hb : s.busy <;> simp only [hb] at h
    · exact .inr ⟨rfl, .inr ⟨b, g, rfl, h.symm⟩⟩
    · exact .inl ⟨rfl, h.symm⟩
  | nop | crcInit | crcBuf | lrcInit | lrcBuf | rtuBuild | rtuParse | ascBuild | ascParse | lpfBuild | lpfParse
  | reservedB | reservedC | reservedD | reservedE | reservedF => simp [isCommand] at hc
  | illegalRsvbits _ _ => simp [isCommand] at hc

end Sys2Proof.Machine
end

