-- ==== Sys2Proof/Laws/Bodies.lean ====
section
/-! SUPPORT. What each command body does, case by case, so that no later proof unfolds a body. -/

namespace Sys2Proof.Machine

theorem crcBufBody_ok (s : State) (h : s.inCount ≤ s.bufSize) :
    crcBufBody s = .ok { s with crcAcc := s.input.foldl crcStep s.crcAcc } := by
  unfold crcBufBody
  rw [if_neg (by omega)]

theorem crcBufBody_inlen (s : State) (h : s.bufSize < s.inCount) : crcBufBody s = raiseErr s .range .inlen := by
  unfold crcBufBody
  rw [if_pos h]

theorem lrcBufBody_ok (s : State) (h : s.inCount ≤ s.bufSize) :
    lrcBufBody s = .ok { s with lrcSum := s.lrcSum + lrcSum s.input } := by
  unfold lrcBufBody
  rw [if_neg (by omega)]

theorem lrcBufBody_inlen (s : State) (h : s.bufSize < s.inCount) : lrcBufBody s = raiseErr s .range .inlen := by
  unfold lrcBufBody
  rw [if_pos h]

theorem rtuBuildBody_ok (s : State) (h : s.inCount + 3 ≤ s.bufSize) :
    rtuBuildBody s =
      .ok { s.putOutput (rtuFrame s.unit s.input) with chkCalc := crc16 (s.unit :: s.input) } := by
  unfold rtuBuildBody
  rw [if_neg (by omega), if_neg (by omega)]

theorem rtuBuildBody_inlen (s : State) (h : s.bufSize < s.inCount) : rtuBuildBody s = raiseErr s .range .inlen := by
  unfold rtuBuildBody
  rw [if_pos h]

theorem rtuBuildBody_outlen (s : State) (h : s.inCount ≤ s.bufSize) (h' : s.bufSize < s.inCount + 3) :
    rtuBuildBody s = raiseErr s .range .outlen := by
  unfold rtuBuildBody
  rw [if_neg (by omega), if_pos h']

theorem rtuParseBody_inlen (s : State) (h : s.bufSize < s.inCount) : rtuParseBody s = raiseErr s .range .inlen := by
  unfold rtuParseBody
  rw [if_pos h]

theorem rtuParseBody_short (s : State) (h : s.inCount ≤ s.bufSize) (h' : s.inCount < 5) :
    rtuParseBody s = raiseErr s .length .short := by
  unfold rtuParseBody
  rw [if_neg (by omega), if_pos h']

theorem rtuParseBody_check (s : State) (h : s.inCount ≤ s.bufSize) (h' : 5 ≤ s.inCount) :
    rtuParseBody s = rtuCheck s s.inCount := by
  unfold rtuParseBody
  rw [if_neg (by omega), if_neg (by omega)]

theorem ascBuildBody_ok (s : State) (h : 2 * s.inCount + 7 ≤ s.bufSize) :
    ascBuildBody s =
      .ok { s.putOutput (ascFrame s.unit s.input) with chkCalc := (lrc (s.unit :: s.input)).setWidth 16 } := by
  unfold ascBuildBody
  rw [if_neg (by omega), if_neg (by omega)]

theorem ascBuildBody_inlen (s : State) (h : s.bufSize < s.inCount) : ascBuildBody s = raiseErr s .range .inlen := by
  unfold ascBuildBody
  rw [if_pos h]

theorem ascBuildBody_outlen (s : State) (h : s.inCount ≤ s.bufSize) (h' : s.bufSize < 2 * s.inCount + 7) :
    ascBuildBody s = raiseErr s .range .outlen := by
  unfold ascBuildBody
  rw [if_neg (by omega), if_pos h']

theorem ascParseBody_inlen (s : State) (h : s.bufSize < s.inCount) : ascParseBody s = raiseErr s .range .inlen := by
  unfold ascParseBody
  simp only [h, if_true]

theorem ascParseBody_short (s : State) (h : s.inCount ≤ s.bufSize) (h' : s.inCount < 7) :
    ascParseBody s = raiseErr s .length .short := by
  unfold ascParseBody
  simp only [Nat.not_lt.2 h, h', if_true, if_false]

theorem ascParseBody_start (s : State) (h : s.inCount ≤ s.bufSize) (h' : 7 ≤ s.inCount)
    (hs : s.ibufAt 0 ≠ markStart) : ascParseBody s = raiseErr s .framing .start := by
  unfold ascParseBody
  simp only [Nat.not_lt.2 h, Nat.not_lt.2 h', hs, if_true, if_false, ne_eq, not_false_eq_true]

theorem ascParseBody_endMark (s : State) (h : s.inCount ≤ s.bufSize) (h' : 7 ≤ s.inCount)
    (hs : s.ibufAt 0 = markStart)
    (he : s.ibufAt (s.inCount - 2) ≠ markCr ∨ s.ibufAt (s.inCount - 1) ≠ markLf) :
    ascParseBody s = raiseErr s .framing .endMark := by
  unfold ascParseBody
  simp only [Nat.not_lt.2 h, Nat.not_lt.2 h', hs, he, if_true, if_false, ne_eq, not_true_eq_false]

theorem ascParseBody_decode (s : State) (h : s.inCount ≤ s.bufSize) (h' : 7 ≤ s.inCount)
    (hs : s.ibufAt 0 = markStart)
    (hcr : s.ibufAt (s.inCount - 2) = markCr) (hlf : s.ibufAt (s.inCount - 1) = markLf) :
    ascParseBody s =
      match hexDec (s.ibufSlice 1 (s.inCount - 2)) with
      | .error e => raiseErr s .framing (hexErrorDet e)
      | .ok d => ascCheck s d := by
  unfold ascParseBody
  simp only [Nat.not_lt.2 h, Nat.not_lt.2 h', hs, hcr, hlf, if_false, ne_eq, not_true_eq_false, or_self]
  all_goals rfl

theorem lpfBuildBody_ok (s : State) (h : s.inCount + 7 ≤ s.bufSize) :
    lpfBuildBody s = .ok { s.putOutput (lpfFrame s.tid s.unit s.input) with tid := s.nextTid } := by
  unfold lpfBuildBody
  rw [if_neg (by omega), if_neg (by omega)]

theorem lpfBuildBody_inlen (s : State) (h : s.bufSize < s.inCount) : lpfBuildBody s = raiseErr s .range .inlen := by
  unfold lpfBuildBody
  rw [if_pos h]

theorem lpfBuildBody_outlen (s : State) (h : s.inCount ≤ s.bufSize) (h' : s.bufSize < s.inCount + 7) :
    lpfBuildBody s = raiseErr s .range .outlen := by
  unfold lpfBuildBody
  rw [if_neg (by omega), if_pos h']

theorem lpfParseBody_inlen (s : State) (h : s.bufSize < s.inCount) : lpfParseBody s = raiseErr s .range .inlen := by
  unfold lpfParseBody
  simp only [h, if_true]

theorem lpfParseBody_short (s : State) (h : s.inCount ≤ s.bufSize) (h' : s.inCount < 8) :
    lpfParseBody s = raiseErr s .length .short := by
  unfold lpfParseBody
  simp only [Nat.not_lt.2 h, h', if_true, if_false]

theorem lpfParseBody_lenfield (s : State) (h : s.inCount ≤ s.bufSize) (h' : 8 ≤ s.inCount)
    (hl : s.inCount ≠ (s.ibufHalf 4).toNat + 6) : lpfParseBody s = raiseErr s .framing .lenfield := by
  unfold lpfParseBody
  simp only [Nat.not_lt.2 h, Nat.not_lt.2 h', hl, if_true, if_false, ne_eq, not_false_eq_true]

theorem lpfParseBody_ok (s : State) (h : s.inCount ≤ s.bufSize) (h' : 8 ≤ s.inCount)
    (hl : s.inCount = (s.ibufHalf 4).toNat + 6) :
    lpfParseBody s = .ok { s.putOutput (s.ibufSlice 7 (7 + ((s.ibufHalf 4).toNat - 1))) with
      rxTid := s.ibufHalf 0, rxPid := s.ibufHalf 2, rxLen := s.ibufHalf 4, rxUnit := s.ibufAt 6 } := by
  unfold lpfParseBody
  simp only [Nat.not_lt.2 h, Nat.not_lt.2 h', if_false]
  rw [if_neg (by simpa using hl)]

end Sys2Proof.Machine
end

