-- ==== Sys2Proof/Laws/PerInstr.lean ====
section
/-! SUPPORT. Statements about every instruction as syntax, one lemma per constructor. -/

namespace Sys2Proof.Laws.EncodingOffset

/-- The register an instruction is written to (30_encoding.md R80, R81): a port write to its own port, a command to CMD. -/
def Statement (i : Instr) : Prop :=
  (encode i).offset =
    match i with
    | .crcDin _ _ => 0x028
    | .lrcDin _ _ => 0x030
    | .nop | .crcInit | .crcBuf | .lrcInit | .lrcBuf | .rtuBuild | .rtuParse | .ascBuild | .ascParse
    | .lpfBuild | .lpfParse | .reservedB | .reservedC | .reservedD | .reservedE | .reservedF => 0x010
    | .illegalRsvbits _ _ => 0x010

theorem nop : Statement .nop := rfl
theorem crcInit : Statement .crcInit := rfl
theorem crcBuf : Statement .crcBuf := rfl
theorem lrcInit : Statement .lrcInit := rfl
theorem lrcBuf : Statement .lrcBuf := rfl
theorem rtuBuild : Statement .rtuBuild := rfl
theorem rtuParse : Statement .rtuParse := rfl
theorem ascBuild : Statement .ascBuild := rfl
theorem ascParse : Statement .ascParse := rfl
theorem lpfBuild : Statement .lpfBuild := rfl
theorem lpfParse : Statement .lpfParse := rfl
theorem reservedB : Statement .reservedB := rfl
theorem reservedC : Statement .reservedC := rfl
theorem reservedD : Statement .reservedD := rfl
theorem reservedE : Statement .reservedE := rfl
theorem reservedF : Statement .reservedF := rfl
theorem illegalRsvbits (rsv : BitVec 28) (op : BitVec 4) : Statement (.illegalRsvbits rsv op) := rfl
theorem crcDin (byte : Byte) (ignored : BitVec 24) : Statement (.crcDin byte ignored) := rfl
theorem lrcDin (byte : Byte) (ignored : BitVec 24) : Statement (.lrcDin byte ignored) := rfl

end Sys2Proof.Laws.EncodingOffset
end

