-- ==== Sys2Proof/Laws/Step.lean ====
section
/-! SUPPORT. What a step can do, said once: the address decode of a host access, and the move of each kind of turn. -/

namespace Sys2Proof.Machine

/-- An access at BASE + off within the window (20_memory.md R60). -/
theorem windowOffset_base (base off : Nat) (h : off < Config.windowSize) :
    windowOffset base (base + off) = some off := by
  simp only [windowOffset]
  rw [if_pos ⟨by omega, by omega⟩]
  congr 1
  omega

/-- Every register lies within the window. -/
theorem regOffset_lt (r : Reg) : regOffset r < Config.windowSize := by cases r <;> decide

/-- A mapped word is the target of an accepted access, and only a mapped word is. -/
theorem accessTarget_none_iff (bufSize size off : Nat) (hb : bufSize % 4 = 0 ∧ 520 ≤ bufSize ∧ bufSize ≤ 4096) :
    accessTarget bufSize size off = none ↔ (size ≠ 4 ∨ ¬mappedWord bufSize off) := by
  simp only [accessTarget, mappedWord]
  by_cases hs : size = 4 ∧ off % 4 = 0
  · rw [if_pos hs]
    obtain ⟨hs1, hs2⟩ := hs
    by_cases h1 : off ≤ 0x04C
    · have hr : regAt off ≠ none := by
        obtain ⟨k, rfl⟩ : ∃ k, off = 4 * k := ⟨off / 4, by omega⟩
        have hk : k < 20 := by omega
        interval_cases k <;> simp [regAt]
      obtain ⟨r, hr⟩ := Option.ne_none_iff_exists'.1 hr
      simp [targetAt, hr, hs1, hs2, h1]
    · have hr : regAt off = none := by
        cases hr : regAt off with
        | none => rfl
        | some r =>
          have := regOffset_of_regAt off r hr
          cases r <;> simp [regOffset] at this <;> omega
      simp only [targetAt, hr, inBuffers]
      simp only [hs1, hs2, h1]
      split
      · rename_i h2
        simp [h2]
      · rename_i h2
        split
        · rename_i h3
          simp [h3]
        · rename_i h3
          simp [h2, h3]
  · rw [if_neg hs]
    simp only [true_iff]
    tauto

/-- A mapped word has a target. -/
theorem accessTarget_of_mapped (bufSize off : Nat) (hb : bufSize % 4 = 0 ∧ 520 ≤ bufSize ∧ bufSize ≤ 4096)
    (h : mappedWord bufSize off) : ∃ t, accessTarget bufSize 4 off = some t := by
  apply Option.ne_none_iff_exists'.1
  rw [Ne, accessTarget_none_iff bufSize 4 off hb]
  exact fun h' => h'.elim (fun e => e rfl) (fun e => e h)

theorem mappedWord_lt (bufSize off : Nat) (hb : bufSize ≤ 4096) (h : mappedWord bufSize off) :
    off < Config.windowSize := by
  simp only [mappedWord, inBuffers, Config.ibufBase, Config.obufBase, Config.windowSize] at *
  omega

/-- The target of a register's offset. -/
theorem accessTarget_reg (bufSize : Nat) (r : Reg) : accessTarget bufSize 4 (regOffset r) = some (.reg r) := by
  cases r <;> rfl

/-- A target that is a register is at that register's offset. -/
theorem offset_of_accessTarget_reg (bufSize size off : Nat) (r : Reg)
    (h : accessTarget bufSize size off = some (.reg r)) : off = regOffset r := by
  simp only [accessTarget, targetAt] at h
  split at h
  · split at h
    · rename_i r' hr
      injection h with h
      injection h with h
      subst h
      exact regOffset_of_regAt off r' hr
    · split at h
      · simp at h
      · split at h <;> simp at h
  · simp at h

/-- A target that is IBUF is a whole word of IBUF. -/
theorem offset_of_accessTarget_ibuf (bufSize size off : Nat) (hb : bufSize % 4 = 0)
    (h : accessTarget bufSize size off = some .ibuf) :
    Config.ibufBase ≤ off ∧ off + 4 ≤ Config.ibufBase + bufSize := by
  simp only [accessTarget, targetAt] at h
  split at h
  · rename_i hs
    split at h
    · simp at h
    · split at h
      · rename_i hr
        simp only [Config.ibufBase] at *
        omega
      · split at h <;> simp at h
  · simp at h

@[simp] theorem runAction_run (i : Instr) (s : State) : runAction (.run i s) = exec i s := rfl

@[simp] theorem runAction_answer (o : Host.Outcome State Fault Refusal) : runAction (.answer o) = o := rfl

/-- The step of a turn. -/
theorem step_cons (s : State) (turn : Turn) (ts : List Turn) (h : s.turns = turn :: ts) :
    step s = runAction (turnAction turn { s with turns := ts }) := by
  simp only [step, nextAction, h]

/-- The step with no turn left. -/
theorem step_nil (s : State) (h : s.turns = []) : step s = runAction (engineAction s) := by
  simp only [step, nextAction, h]

/-- A host access that the block decodes. -/
theorem hostAccess_answered (a : Access) (s : State) (off : Nat) (t : Target) (hin : s.resetIn = false)
    (ha : windowOffset s.base a.addr = some off) (ht : accessTarget s.bufSize a.size off = some t) :
    hostAccess a s = accessTargetAction t off a.op s := by
  simp [hostAccess, ha, hin, ht]

/-- A host access that the block refuses (20_memory.md R66). -/
theorem hostAccess_refused (a : Access) (s : State) (off : Nat) (hin : s.resetIn = false)
    (ha : windowOffset s.base a.addr = some off) (ht : accessTarget s.bufSize a.size off = none) :
    hostAccess a s = .answer (.fault (.busError off)) := by
  simp [hostAccess, ha, hin, ht]

/-- The step of a host access that the block decodes (10_state.md R21). -/
theorem step_host (s : State) (off size : Nat) (op : AccessOp) (ts : List Turn) (t : Target)
    (hturn : s.turns = .host { addr := s.base + off, size := size, op := op } :: ts) (hin : s.resetIn = false)
    (ho : off < Config.windowSize) (ht : accessTarget s.bufSize size off = some t) :
    step s = runAction (accessTargetAction t off op { s with turns := ts, reply := none }) := by
  rw [step_cons s _ ts hturn, turnAction]
  exact congrArg runAction (hostAccess_answered _ { s with turns := ts, reply := none } off t hin
    (windowOffset_base s.base off ho) ht)

/-- The step of a host read at a mapped offset. -/
theorem step_rd (s : State) (off : Nat) (ts : List Turn) (t : Target) (hturn : s.nextLine (.rd off) ts)
    (hin : s.resetIn = false) (ho : off < Config.windowSize) (ht : accessTarget s.bufSize 4 off = some t) :
    step s = .next (hostRead t off { s with turns := ts, reply := none }) :=
  step_host s off 4 .read ts t hturn hin ho ht

/-- The step of a host write at a mapped offset. -/
theorem step_wr (s : State) (off : Nat) (v : Word) (ts : List Turn) (t : Target) (hturn : s.nextLine (.wr off v) ts)
    (hin : s.resetIn = false) (ho : off < Config.windowSize) (ht : accessTarget s.bufSize 4 off = some t) :
    step s = runAction (accessTargetAction t off (.write v) { s with turns := ts, reply := none }) :=
  step_host s off 4 (.write v) ts t hturn hin ho ht

/-- The step of a host write to a register. -/
theorem step_wr_reg (s : State) (r : Reg) (v : Word) (ts : List Turn) (hturn : s.nextLine (.wr (regOffset r) v) ts)
    (hin : s.resetIn = false) :
    step s = runAction (accessTargetAction (.reg r) (regOffset r) (.write v) { s with turns := ts, reply := none }) :=
  step_wr s (regOffset r) v ts (.reg r) hturn hin (regOffset_lt r) (accessTarget_reg _ r)

/-- A run whose first step is known. -/
theorem run_succ (n : Nat) (s t : State) (h : step s = .next t) :
    Host.Core.run core (n + 1) s = Host.Core.run core n t := by
  have h' : core.step s = .next t := h
  simp only [Host.Core.run, h']

/-- A host read changes nothing but the model's own reply and free-value counter (20_memory.md R63). -/
theorem hostRead_changes (t : Target) (off : Nat) (s : State) :
    ∃ r n, hostRead t off s = { s with reply := r, busyReads := n } := by
  unfold hostRead
  split
  · exact ⟨_, _, rfl⟩
  · exact ⟨_, s.busyReads, rfl⟩

/-- Every way a step can end in a next state: nothing but the turn taken (an idle engine, an unanswered access), an
instruction, a host read, a host write, or one of the two edges of the reset input. -/
inductive StepEnd (s t : State) : Prop where
  | quiet (ts : List Turn) (r : Option Word) (eq : t = { s with turns := ts, reply := r })
  | command (ts : List Turn) (i : Instr) (busy : s.busy = true) (notReset : s.resetIn = false)
      (isCmd : isCommand i = true) (eq : exec i { s with turns := ts } = .next t)
  | port (ts : List Turn) (i : Instr) (notReset : s.resetIn = false) (isPort : isCommand i = false)
      (next : ∃ target v, s.nextTarget = some (target, .write v) ∧ isSoftReset target v = false)
      (eq : exec i { s with turns := ts, reply := none } = .next t)
  | read (ts : List Turn) (r : Option Word) (n : Nat) (eq : t = { s with turns := ts, reply := r, busyReads := n })
  | write (ts : List Turn) (target : Target) (off : Nat) (v : Word) (notReset : s.resetIn = false)
      (mapped : accessTarget s.bufSize 4 off = some target)
      (next : s.nextTarget = some (target, .write v))
      (eq : t = hostWrite target off v { s with turns := ts, reply := none })
  | resetAssert (ts : List Turn) (eq : t = { ({ s with turns := ts } : State).powerOnReset with resetIn := true })
  | resetRelease (ts : List Turn) (eq : t = { ({ s with turns := ts } : State).powerOnReset with resetIn := false })

theorem isCommand_decodeCommand (v : Word) : isCommand (decodeCommand v) = true := by
  simp only [decodeCommand]
  split
  · simp only [decodeOp]
    split <;> rfl
  · rfl

theorem accessTarget_size (bufSize size off : Nat) (t : Target) (h : accessTarget bufSize size off = some t) :
    size = 4 := by
  simp only [accessTarget] at h
  split at h
  · rename_i hs; exact hs.1
  · simp at h

theorem engineStep_ends (s t : State) (ts : List Turn)
    (h : runAction (engineAction { s with turns := ts }) = .next t) : StepEnd s t := by
  unfold engineAction at h
  split at h
  · rename_i he
    simp only [State.engineEnabled, Bool.and_eq_true, Bool.not_eq_true'] at he
    exact .command ts _ he.1 he.2 (isCommand_decodeCommand _) h
  · injection h with h
    exact .quiet ts s.reply h.symm

/-- A host write that is no port write: the same for every such target. -/
theorem writeAction_ends (s t : State) (ts : List Turn) (target : Target) (off : Nat) (v : Word)
    (hr : s.resetIn = false) (ha : accessTarget s.bufSize 4 off = some target)
    (hnt : s.nextTarget = some (target, .write v))
    (h : runAction (accessTargetAction target off (.write v) { s with turns := ts, reply := none }) = .next t) :
    StepEnd s t := by
  unfold accessTargetAction at h
  split at h
  · rename_i he; cases he
  · exact .port ts (decodeCrcDin _) hr rfl ⟨_, _, hnt, rfl⟩ h
  · exact .port ts (decodeLrcDin _) hr rfl ⟨_, _, hnt, rfl⟩ h
  · rename_i he _ _
    injection he with he
    subst he
    injection h with h
    exact .write ts _ off _ hr ha hnt h.symm

theorem hostStep_ends (s t : State) (a : Access) (ts : List Turn) (hturn : s.turns = .host a :: ts)
    (h : runAction (hostAccess a { s with turns := ts, reply := none }) = .next t) : StepEnd s t := by
  cases hw : windowOffset s.base a.addr with
  | none =>
    simp only [hostAccess, hw] at h
    injection h with h
    exact .quiet ts none h.symm
  | some off =>
    cases hr : s.resetIn with
    | true =>
      simp [hostAccess, hw, hr] at h
      exact .quiet ts none (by rw [← h, ← hr])
    | false =>
      cases ha : accessTarget s.bufSize a.size off with
      | none =>
        rw [hostAccess_refused a { s with turns := ts, reply := none } off hr hw ha] at h
        exact absurd h (by simp)
      | some target =>
        have hsz := accessTarget_size _ _ _ _ ha
        have hnt : s.nextTarget = some (target, a.op) := by
          simp [State.nextTarget, hturn, hw, ha]
        rw [hostAccess_answered a { s with turns := ts, reply := none } off target hr hw ha] at h
        rw [hsz] at ha
        cases hop : a.op with
        | read =>
          rw [hop] at h
          obtain ⟨r, n, hread⟩ := hostRead_changes target off { s with turns := ts, reply := none }
          injection h with h
          exact .read ts r n (by rw [← h, hread])
        | write v =>
          rw [hop] at h hnt
          exact writeAction_ends s t ts target off v hr ha hnt h

/-- Every step that answers a next state is one of the ways of `StepEnd`. -/
theorem step_ends (s t : State) (h : step s = .next t) : StepEnd s t := by
  cases hturn : s.turns with
  | nil =>
    have hs : s = { s with turns := [] } := by rw [← hturn]
    rw [step_nil s hturn, hs] at h
    exact engineStep_ends s t [] h
  | cons turn ts =>
    rw [step_cons s turn ts hturn] at h
    cases turn with
    | engine => exact engineStep_ends s t ts h
    | resetAssert =>
      injection h with h
      exact .resetAssert ts h.symm
    | resetRelease =>
      injection h with h
      unfold releaseReset at h
      split at h
      · exact .resetRelease ts h.symm
      · exact .quiet ts s.reply h.symm
    | host a => exact hostStep_ends s t a ts hturn h

end Sys2Proof.Machine
end

