-- ==== Sys2Proof/Tests/Slice0.lean ====
section
/-! SUPPORT. The model's own tests. Expected values come from spec/95_test_vectors.md and from the encodings of
spec/30_encoding.md; each names its vector. Then one witness theorem for the hypotheses of each obligation. -/

namespace Sys2Proof.Tests

open Sys2Proof.Machine

/-- The next state of an outcome, if it is one. -/
def nextOf (o : Host.Outcome State Fault Refusal) : Option State :=
  match o with
  | .next s => some s
  | .fault _ => none
  | .refused _ => none

/-- The fault of an outcome, if it is one. -/
def faultOf (o : Host.Outcome State Fault Refusal) : Option Fault :=
  match o with
  | .next _ => none
  | .fault r => some r
  | .refused _ => none

/-- The reset state with these bytes as the input of the next command. -/
def withInput (bs : List Byte) : State :=
  { State.reset.storeBytes Config.ibufBase bs with inLen := BitVec.ofNat 16 bs.length }

/-- The reset state with this IN_LEN. -/
def withLen (n : Nat) : State := { State.reset with inLen := BitVec.ofNat 16 n }

/-- The reset state with these turns. -/
def idle (ts : List Turn) : State := { State.reset with turns := ts }

/-- A state with this CMD word in flight and these turns. -/
def busyWith (v : Word) (ts : List Turn) : State := { State.reset.accept v with turns := ts }

/-- The turn of a host write, BASE being 0. -/
def wr (off : Nat) (v : Word) : Turn := lineTurn 0 (.wr off v)

/-- The turn of a host read, BASE being 0. -/
def rd (off : Nat) : Turn := lineTurn 0 (.rd off)

/-- OBUF[0..OUT_LEN). -/
def output (s : State) : List Byte := s.obufSlice 0 s.outLen.toNat

/-- STATUS after the step that runs a CMD word. -/
def statusAfter (s : State) (v : Nat) : Option Word := (nextOf (step (s.withFetchWord 32 v))).map State.statusWord

/-- V-SRC-01 (RTU frame of the source). -/
def rtuText : List Byte := [0x02, 0x01, 0x00, 0x20, 0x00, 0x0C, 0x3D, 0xF6]

/-- V-SRC-02 (ASCII frame of the source). -/
def ascText : List Byte :=
  [0x3A, 0x30, 0x32, 0x30, 0x31, 0x30, 0x30, 0x32, 0x30, 0x30, 0x30, 0x30, 0x43, 0x44, 0x31, 0x0D, 0x0A]

/-- V-SRC-03 (length-prefixed frame of the source). -/
def lpfText : List Byte := [0x00, 0x05, 0x00, 0x00, 0x00, 0x06, 0x02, 0x01, 0x00, 0x20, 0x00, 0x0C]

/-- The PDU of V-SRC-01 to V-SRC-03. -/
def pdu : List Byte := [0x01, 0x00, 0x20, 0x00, 0x0C]

/-! ### Well-formedness -/

theorem test_illFormed_refused : wellFormed (.illegalRsvbits 0 5) = false := by decide

theorem test_wellFormed_accepted : wellFormed (.illegalRsvbits 1 5) = true := by decide

/-! ### Decoding: one word for every constructor, written out from R80 to R87 -/

theorem test_decode_control :
    decode ⟨0x010, 0b00000000000000000000000000000000#32⟩ = .ok .nop ∧
    decode ⟨0x010, 0b00000000000000000000000000001011#32⟩ = .ok .reservedB ∧
    decode ⟨0x010, 0b00000000000000000000000000001100#32⟩ = .ok .reservedC ∧
    decode ⟨0x010, 0b00000000000000000000000000001101#32⟩ = .ok .reservedD ∧
    decode ⟨0x010, 0b00000000000000000000000000001110#32⟩ = .ok .reservedE ∧
    decode ⟨0x010, 0b00000000000000000000000000001111#32⟩ = .ok .reservedF ∧
    decode ⟨0x010, 0b10000000000000000000000000010101#32⟩ = .ok (.illegalRsvbits 0x8000001 5) := by decide

theorem test_decode_checksum :
    decode ⟨0x010, 0b00000000000000000000000000000001#32⟩ = .ok .crcInit ∧
    decode ⟨0x010, 0b00000000000000000000000000000010#32⟩ = .ok .crcBuf ∧
    decode ⟨0x010, 0b00000000000000000000000000000011#32⟩ = .ok .lrcInit ∧
    decode ⟨0x010, 0b00000000000000000000000000000100#32⟩ = .ok .lrcBuf := by decide

theorem test_decode_port :
    decode ⟨0x028, 0b00000000000000000000000100000010#32⟩ = .ok (.crcDin 0x02 1) ∧
    decode ⟨0x030, 0b11111111000000000000000010000001#32⟩ = .ok (.lrcDin 0x81 0xFF0000) := by decide

theorem test_decode_frames :
    decode ⟨0x010, 0b00000000000000000000000000000101#32⟩ = .ok .rtuBuild ∧
    decode ⟨0x010, 0b00000000000000000000000000000110#32⟩ = .ok .rtuParse ∧
    decode ⟨0x010, 0b00000000000000000000000000000111#32⟩ = .ok .ascBuild ∧
    decode ⟨0x010, 0b00000000000000000000000000001000#32⟩ = .ok .ascParse ∧
    decode ⟨0x010, 0b00000000000000000000000000001001#32⟩ = .ok .lpfBuild ∧
    decode ⟨0x010, 0b00000000000000000000000000001010#32⟩ = .ok .lpfParse := by decide

theorem test_decode_other_offset : decode ⟨0x014, 5#32⟩ = .error (.notAnInstruction 0x014) := by decide

theorem test_decodeTableWord :
    decodeTableWord 32 0x9 = some .lpfBuild ∧ decodeTableWord 8 0x02 = some (.crcDin 0x02 0) := by decide

/-! ### Pure functions -/

/-- V-CRC-05, V-CRC-14. -/
theorem test_crcStep : crcStep 0xFFFF 0x02 = 0x813E ∧ crcStep 0x1234 0x56 = 0xE993 ∧ crcStep 0 0x01 = 0xC0C1 := by decide

/-- V-CRC-07, V-CRC-12. -/
theorem test_crc16 :
    crc16 [0x31, 0x32, 0x33, 0x34, 0x35, 0x36, 0x37, 0x38, 0x39] = 0x4B37 ∧ crc16 rtuText = 0 := by decide +kernel

/-- V-LRC-06, V-LRC-05, V-LRC-09. -/
theorem test_lrc :
    lrc [0x02, 0x01, 0x00, 0x20, 0x00, 0x0C] = 0xD1 ∧ lrc [0x80] = 0x80 ∧ lrc [0x7F, 0x81] = 0 := by decide

/-- V-HEX-03 to V-HEX-09. -/
theorem test_hex :
    hexEnc [0x00, 0xFF, 0xAB] = [0x30, 0x30, 0x46, 0x46, 0x41, 0x42] ∧
    [0x2F, 0x3A, 0x40, 0x47, 0x60, 0x67].map hexVal = [none, none, none, none, none, none] ∧
    [0x30, 0x39, 0x41, 0x46, 0x61, 0x66].map hexVal = [some 0, some 9, some 10, some 15, some 10, some 15] ∧
    hexPairs [0x30, 0x63, 0x44, 0x31] = some [0x0C, 0xD1] ∧
    hexPairs [0x30, 0x47] = none := by decide

/-! ### Control family -/

/-- V-CTL-01. -/
theorem test_nop : statusAfter State.reset 0 = some 0x00000002 := by decide

/-- V-CTL-02. -/
theorem test_reservedB : statusAfter State.reset 0xB = some 0x0000B942 := by decide

theorem test_reservedC : statusAfter State.reset 0xC = some 0x0000C942 := by decide

theorem test_reservedD : statusAfter State.reset 0xD = some 0x0000D942 := by decide

theorem test_reservedE : statusAfter State.reset 0xE = some 0x0000E942 := by decide

/-- V-CTL-03. -/
theorem test_reservedF : statusAfter State.reset 0xF = some 0x0000F942 := by decide

/-- V-CTL-04, V-CTL-06. -/
theorem test_illegalRsvbits :
    statusAfter State.reset 0x15 = some 0x00005A42 ∧ statusAfter State.reset 0x80000000 = some 0x00000A42 := by decide

/-! ### Checksum family -/

/-- V-CRC-18. -/
theorem test_crcInit :
    (nextOf (exec .crcInit { State.reset with crcAcc := 0, outLen := 7 })).map (fun t => (t.crcAcc, t.outLen)) =
      some (0xFFFF, 7) ∧
    statusAfter State.reset 1 = some 0x00001002 := by decide

/-- V-CRC-19, first half. -/
theorem test_crcBuf :
    (nextOf (exec .crcBuf (withInput [0x02, 0x01, 0x00]))).map (·.crcAcc) = some 0x90D1 := by decide +kernel

/-- V-CRC-16. -/
theorem test_crcBuf_inlen : statusAfter (withLen 1025) 2 = some 0x00002B52 := by decide

/-- V-LRC-15. -/
theorem test_lrcInit :
    (nextOf (exec .lrcInit { State.reset with lrcSum := 0x2F })).map (fun t => (t.lrcSum, t.lrcVal)) = some (0, 0) ∧
    statusAfter State.reset 3 = some 0x00003002 := by decide

/-- V-LRC-16. -/
theorem test_lrcBuf :
    (nextOf (exec .lrcBuf (withInput [0x02, 0x01, 0x00, 0x20, 0x00, 0x0C]))).map (fun t => (t.lrcSum, t.lrcVal)) =
      some (0x2F, 0xD1) := by decide

/-- V-LRC-17. -/
theorem test_lrcBuf_inlen : statusAfter (withLen 1025) 4 = some 0x00004B52 := by decide

/-- V-CRC-17. -/
theorem test_crcDin : (nextOf (exec (.crcDin 0x02 1) State.reset)).map (·.crcAcc) = some 0x813E := by decide

/-- V-LRC-12, second write. -/
theorem test_lrcDin :
    (nextOf (exec (.lrcDin 0x01 0) { State.reset with lrcSum := 0xFF })).map (fun t => (t.lrcSum, t.lrcVal)) =
      some (0, 0) := by decide

/-! ### RTU family -/

/-- V-SRC-01. -/
theorem test_rtuBuild :
    (nextOf (exec .rtuBuild { withInput pdu with unit := 0x02 })).map (fun t => (output t, t.chkCalc)) =
      some (rtuText, 0xF63D) := by decide +kernel

/-- V-RTU-05. -/
theorem test_rtuBuild_outlen : statusAfter (withLen 1022) 5 = some 0x00005C52 := by decide

/-- V-RTU-10. -/
theorem test_rtuParse :
    (nextOf (exec .rtuParse (withInput [0x11, 0x83, 0x02, 0xC1, 0x34]))).map
      (fun t => (output t, t.rxUnit, t.chkCalc, t.chkRx)) = some ([0x83, 0x02], 0x11, 0x34C1, 0x34C1) := by decide +kernel

/-- V-RTU-07. -/
theorem test_rtuParse_swapped :
    (nextOf (exec .rtuParse (withInput [0x01, 0x05, 0x00, 0x64, 0xFF, 0x00, 0xE5, 0xCD]))).map
      (fun t => (t.det, t.chkCalc, t.chkRx, t.rxUnit, t.outLen)) = some (.crc, 0xE5CD, 0xCDE5, 0, 0) := by decide +kernel

/-! ### ASCII family -/

/-- V-SRC-02. -/
theorem test_ascBuild :
    (nextOf (exec .ascBuild { withInput pdu with unit := 0x02 })).map (fun t => (output t, t.chkCalc)) =
      some (ascText, 0x00D1) := by decide

/-- V-ASC-05. -/
theorem test_ascBuild_outlen : statusAfter (withLen 509) 7 = some 0x00007C52 := by decide

/-- V-ASC-11: an empty PDU. -/
theorem test_ascParse :
    (nextOf (exec .ascParse (withInput [0x3A, 0x46, 0x46, 0x30, 0x31, 0x0D, 0x0A]))).map
      (fun t => (output t, t.rxUnit, t.chkCalc, t.chkRx, t.err)) = some ([], 0xFF, 1, 1, .none) := by decide

/-- V-ASC-16: a colon inside the interior, and the odd length tested first. -/
theorem test_ascParse_nonhex :
    (nextOf (exec .ascParse (withInput [0x3A, 0x32, 0x3A, 0x30, 0x31, 0x0D, 0x0A]))).map (·.det) = some .nonhex ∧
    (nextOf (exec .ascParse (withInput [0x3A, 0x32, 0x3A, 0x30, 0x31, 0x30, 0x0D, 0x0A]))).map (·.det) =
      some .odd := by decide

/-! ### Length-prefixed family -/

/-- V-LPF-01: TID wraps. -/
theorem test_lpfBuild :
    (nextOf (exec .lpfBuild { withInput [0x01] with unit := 0xFF, tid := 0xFFFF, tidinc := true })).map
      (fun t => (output t, t.tid)) = some ([0xFF, 0xFF, 0x00, 0x00, 0x00, 0x02, 0xFF, 0x01], 0) := by decide

/-- V-LPF-05. -/
theorem test_lpfBuild_outlen : statusAfter (withLen 1018) 9 = some 0x00009C52 := by decide

/-- V-LPF-10: the protocol id is not checked. -/
theorem test_lpfParse :
    (nextOf (exec .lpfParse (withInput [0x12, 0x34, 0xAB, 0xCD, 0x00, 0x03, 0x11, 0x03, 0x04]))).map
      (fun t => (output t, t.rxTid, t.rxPid, t.rxLen, t.rxUnit)) =
        some ([0x03, 0x04], 0x1234, 0xABCD, 3, 0x11) := by decide

/-- V-LPF-06. -/
theorem test_lpfParse_lenfield :
    (nextOf (exec .lpfParse
      (withInput [0x00, 0x05, 0x00, 0x00, 0x00, 0x07, 0x02, 0x01, 0x00, 0x20, 0x00, 0x0C]))).map (·.det) =
        some .lenfield := by decide

/-! ### Host accesses and the engine -/

/-- V-CTL-07: STATUS while the command runs. -/
theorem test_status_busy :
    (nextOf (step (busyWith 5 [rd 0x00C]))).map (·.reply) = some (some 0x00005001) := by decide

/-- V-CTL-11: a write to IN_LEN is dropped. -/
theorem test_write_busy :
    (nextOf (step (busyWith 2 [wr 0x014 3]))).map (fun t => (t.inLen, t.werr, t.busy)) = some (0, true, true) := by
  decide

/-- V-CTL-10: a soft reset, also of a running command (P8). -/
theorem test_softReset :
    (nextOf (step (busyWith 5 [wr 0x008 7]))).map (fun t => (t.ctrlWord, t.statusWord, t.pending)) =
      some (0, 0, 0) := by decide

/-- V-CTL-12: misaligned, unmapped and byte-sized accesses. -/
theorem test_busError :
    faultOf (step (idle [rd 0x002])) = some (.busError 0x002) ∧
    faultOf (step (idle [rd 0x050])) = some (.busError 0x050) ∧
    faultOf (step (idle [wr 0x3000 0])) = some (.busError 0x3000) ∧
    faultOf (step (idle [.host { addr := 0, size := 1, op := .read }])) = some (.busError 0) := by decide

/-- V-CTL-14, V-CTL-15: ID and PARAM. -/
theorem test_constants :
    (nextOf (step (idle [rd 0x000]))).map (·.reply) = some (some 0x584D4601) ∧
    (nextOf (step (idle [rd 0x004]))).map (·.reply) = some (some 0x00000400) := by decide

/-- P1: the packing of IBUF and OBUF words. -/
theorem test_packing :
    (nextOf (step (idle [wr 0x1000 0x00200001]))).map (fun t => (t.ibufSlice 0 4)) =
      some [0x01, 0x00, 0x20, 0x00] ∧
    (nextOf (step { State.reset.storeBytes 0x2000 rtuText with turns := [rd 0x2004] })).map (·.reply) =
      some (some 0xF63D0C00) := by decide

/-- V-CTL-16: the interrupt line. -/
theorem test_irq :
    (nextOf (exec .nop { State.reset with ie := true })).map (·.irq) = some true ∧
    (nextOf (step { idle [wr 0x00C 2] with ie := true, done := true })).map (·.irq) = some false := by decide

/-- R90: the lines of WBUF, as P1 lists them, and CMD. -/
theorem test_pseudo :
    wbufLines 0 pdu = [.wr 0x1000 0x00200001, .wr 0x1004 0x0000000C] ∧
    cmdLine .rtuBuild = .wr 0x010 0x00000005 ∧
    rbufLines 0 8 = [.rd 0x2000, .rd 0x2004] := by decide

/-! ### Witnesses: states and operands that meet the hypotheses of each obligation -/

theorem witness_DecodeOfEncodeIsTheInstruction :
    wellFormed (.illegalRsvbits 1 0) = true ∧ wellFormed (.illegalRsvbits 0xFFFFFFF 15) = true ∧
    wellFormed (.crcDin 0xFF 0xFFFFFF) = true ∧ wellFormed .reservedF = true := by decide

theorem witness_EncodeOfDecodeIsTheWrite :
    decode ⟨0x010, 0x10#32⟩ = .ok (.illegalRsvbits 1 0) ∧ decode ⟨0x030, 0x80#32⟩ = .ok (.lrcDin 0x80 0) := by decide

theorem witness_CommandDecoderFollowsTheOpcodeMap :
    (0x10#32).toNat / 16 ≠ 0 ∧ (0xFFFFFFFF#32).toNat / 16 ≠ 0 ∧ (0xF#32).toNat / 16 = 0 := by decide

theorem witness_EngineStepRunsTheDecodedCommand :
    (busyWith 0xA [.engine, rd 0x00C]).busy = true ∧ (busyWith 0xA [.engine, rd 0x00C]).resetIn = false ∧
    decode ⟨0x010, (busyWith 0xA [.engine, rd 0x00C]).pending⟩ = .ok .lpfParse ∧
    (busyWith 0xA [.engine, rd 0x00C]).turns = .engine :: [rd 0x00C] ∧
    (busyWith 0x10 []).busy = true ∧ (busyWith 0x10 []).turns = [] ∧
    decode ⟨0x010, (busyWith 0x10 []).pending⟩ = .ok (.illegalRsvbits 1 0) := by decide

theorem witness_PortWriteStepRunsTheDecodedInstruction :
    (idle [wr 0x028 0x102]).resetIn = false ∧ (idle [wr 0x028 0x102]).nextLine (.wr 0x028 0x102) [] ∧
    decode ⟨0x028, 0x102#32⟩ = .ok (.crcDin 0x02 1) ∧
    (busyWith 2 [wr 0x030 0xFF]).nextLine (.wr 0x030 0xFF) [] ∧
    decode ⟨0x030, 0xFF#32⟩ = .ok (.lrcDin 0xFF 0) := by decide

theorem witness_CmdWriteIsAccepted :
    (idle [wr 0x010 0xFFFFFFFF]).busy = false ∧ (idle [wr 0x010 0xFFFFFFFF]).resetIn = false ∧
    (idle [wr 0x010 0xFFFFFFFF]).nextLine (.wr 0x010 0xFFFFFFFF) [] := by decide

theorem witness_CompletionStepReports :
    (busyWith 0xB [.engine]).busy = true ∧ (busyWith 0xB [.engine]).resetIn = false ∧
    (busyWith 0xB [.engine]).turns = .engine :: [] := by decide

theorem witness_IdleEngineMoveChangesNothing :
    (idle [.engine]).busy = false ∧ (idle [.engine]).turns = .engine :: [] ∧
    (idle []).busy = false ∧ (idle []).turns = [] := by decide

theorem witness_PollSeesCompletion :
    (busyWith 5 (pollTurns 0 2)).busy = true ∧ (busyWith 5 (pollTurns 0 2)).resetIn = false ∧
    (busyWith 5 (pollTurns 0 2)).turns = pollTurns (busyWith 5 (pollTurns 0 2)).base 2 ++ [] ∧
    (busyWith 5 (pollTurns 0 0)).turns = pollTurns (busyWith 5 (pollTurns 0 0)).base 0 ++ [] := by decide

theorem witness_InitCommandsSetTheirAccumulator : ∃ t, exec .lrcInit State.reset = .next t := ⟨_, rfl⟩

theorem witness_CrcBufFeedsTheInput :
    (withLen 1024).inLen.toNat ≤ (withLen 1024).bufSize ∧ (withLen 1025).bufSize < (withLen 1025).inLen.toNat := by
  decide

theorem witness_LrcBufAddsTheInput :
    (withLen 1024).inLen.toNat ≤ (withLen 1024).bufSize ∧ (withLen 1025).bufSize < (withLen 1025).inLen.toNat := by
  decide

theorem witness_PortWritesFeedTheirEngine : State.reset.busy = false := by decide

theorem witness_PortWritesWhileBusyAreDropped : (busyWith 2 []).busy = true := by decide

theorem witness_FeedCrcAppliesTheBytesInOrder :
    (idle [wr 0x028 0x3D, wr 0x028 0xF6, .engine]).busy = false ∧
    (idle [wr 0x028 0x3D, wr 0x028 0xF6, .engine]).resetIn = false ∧
    (idle [wr 0x028 0x3D, wr 0x028 0xF6, .engine]).reply = none ∧
    (idle [wr 0x028 0x3D, wr 0x028 0xF6, .engine]).turns =
      (feedCrcLines [0x3D, 0xF6]).map (lineTurn 0) ++ [.engine] := by decide

/-- The ends of each digit range and the bytes just outside (V-HEX-04, V-HEX-05); V-HEX-07, V-HEX-08, V-HEX-06. -/
theorem witness_HexDecodeFollowsItsRule :
    (∀ c ∈ ([0x30, 0x39] : List Byte), 0x30 ≤ c.toNat ∧ c.toNat ≤ 0x39) ∧
    (∀ c ∈ ([0x41, 0x46] : List Byte), 0x41 ≤ c.toNat ∧ c.toNat ≤ 0x46) ∧
    (∀ c ∈ ([0x61, 0x66] : List Byte), 0x61 ≤ c.toNat ∧ c.toNat ≤ 0x66) ∧
    (∀ c ∈ ([0x2F, 0x3A, 0x40, 0x47, 0x60, 0x67] : List Byte),
      c.toNat < 0x30 ∨ (0x39 < c.toNat ∧ c.toNat < 0x41) ∨ (0x46 < c.toNat ∧ c.toNat < 0x61) ∨ 0x66 < c.toNat) ∧
    ([0x30, 0x43, 0x44] : List Byte).length % 2 = 1 ∧
    (([0x30, 0x47] : List Byte).length % 2 = 0 ∧ ∃ c ∈ ([0x30, 0x47] : List Byte), hexVal c = none) ∧
    (([0x30, 0x63] : List Byte).length % 2 = 0 ∧ ∀ c ∈ ([0x30, 0x63] : List Byte), hexVal c ≠ none) := by decide

theorem witness_ThreeWaysToComputeAChecksumAgree :
    (withLen 1021).inLen.toNat ≤ (withLen 1021).bufSize ∧ (withLen 1021).inLen.toNat + 3 ≤ (withLen 1021).bufSize ∧
    (withLen 508).inLen.toNat ≤ (withLen 508).bufSize ∧ 2 * (withLen 508).inLen.toNat + 7 ≤ (withLen 508).bufSize := by
  decide

/-- V-RTU-04, V-RTU-05 and the ends of the ranges. -/
theorem witness_RtuBuildWritesTheFrame :
    (withLen 1021).inLen.toNat + 3 ≤ (withLen 1021).bufSize ∧
    (withLen 1025).bufSize < (withLen 1025).inLen.toNat ∧
    ((withLen 1022).inLen.toNat ≤ (withLen 1022).bufSize ∧ (withLen 1022).bufSize < (withLen 1022).inLen.toNat + 3) ∧
    ((withLen 1024).inLen.toNat ≤ (withLen 1024).bufSize ∧ (withLen 1024).bufSize < (withLen 1024).inLen.toNat + 3) := by
  decide

/-- The hypotheses `c` and `rx` of the obligation, for a state. -/
def rtuChecks (s : State) (c rx : Half) : Prop :=
  c = crc16 (s.inputBytes.take (s.inLen.toNat - 2)) ∧
    rx = BitVec.ofNat 16
      ((s.ibufAt (s.inLen.toNat - 2)).toNat + 256 * (s.ibufAt (s.inLen.toNat - 1)).toNat)

/-- A good frame of the least length 5 (V-RTU-10), a bad one (V-RTU-06), and the two length errors. -/
theorem witness_RtuParseChecksAndExtracts :
    (∃ s c rx, s = withInput [0x11, 0x83, 0x02, 0xC1, 0x34] ∧ s.inLen.toNat = 5 ∧ rtuChecks s c rx ∧
      5 ≤ s.bufSize ∧ c = rx) ∧
    (∃ s c rx, s = withInput [0x01, 0x05, 0x00, 0x64, 0xFF, 0x00, 0xCD, 0xE4] ∧ s.inLen.toNat = 8 ∧ rtuChecks s c rx ∧
      8 ≤ s.bufSize ∧ c ≠ rx) ∧
    (∃ s c rx, s = withLen 1025 ∧ s.inLen.toNat = 1025 ∧ rtuChecks s c rx ∧ s.bufSize < 1025) ∧
    (∃ s c rx, s = withLen 4 ∧ s.inLen.toNat = 4 ∧ rtuChecks s c rx ∧ 4 ≤ s.bufSize) := by
  refine ⟨⟨_, 0x34C1, 0x34C1, rfl, by decide, ?_, by decide, rfl⟩, ⟨_, 0xE5CD, 0xE4CD, rfl, by decide, ?_, by decide, by decide⟩,
    ⟨_, _, _, rfl, by decide, ⟨rfl, rfl⟩, by decide⟩, ⟨_, _, _, rfl, by decide, ⟨rfl, rfl⟩, by decide⟩⟩ <;>
    (constructor <;> decide +kernel)

/-- A state that holds, as its input, what a build of `s` wrote. -/
def frameBack (t : State) : State := withInput (output t)

/-- The least PDU, 2 bytes, and the frame copied back (V-RTU-02, V-RTU-12). -/
theorem witness_RtuRoundTrip :
    ∃ s t, s = ({ withInput [0x83, 0x02] with unit := 0xFF } : State) ∧
      2 ≤ s.inLen.toNat ∧ s.inLen.toNat + 3 ≤ s.bufSize ∧ exec .rtuBuild s = .next t ∧
      (frameBack t).param = s.param ∧ (frameBack t).inLen = t.outLen ∧
      ∀ i < t.outLen.toNat, (frameBack t).ibufAt i = t.obufAt i :=
  ⟨_, _, rfl, by decide, by decide, rfl, by decide +kernel, by decide +kernel, by decide +kernel⟩

/-- V-ASC-04, V-ASC-05 and the ends of the ranges. -/
theorem witness_AscBuildWritesTheFrame :
    (∀ j ∈ [0, 2], j < ([0x00, 0xFF, 0xAB] : List Byte).length) ∧
    2 * (withLen 508).inLen.toNat + 7 ≤ (withLen 508).bufSize ∧
    (withLen 1025).bufSize < (withLen 1025).inLen.toNat ∧
    ((withLen 509).inLen.toNat ≤ (withLen 509).bufSize ∧ (withLen 509).bufSize < 2 * (withLen 509).inLen.toNat + 7) ∧
    ((withLen 1024).inLen.toNat ≤ (withLen 1024).bufSize ∧
      (withLen 1024).bufSize < 2 * (withLen 1024).inLen.toNat + 7) := by decide

/-- The hypotheses on the length and on the markers, for a state. -/
abbrev ascMarked (s : State) (n : Nat) : Prop :=
  s.inLen.toNat = n ∧ n ≤ s.bufSize ∧ 7 ≤ n ∧ s.ibufAt 0 = 0x3A ∧ s.ibufAt (n - 2) = 0x0D ∧ s.ibufAt (n - 1) = 0x0A

/-- One frame for each clause, of the least length 7 where the clause allows it. -/
theorem witness_AscParseRejectsBadFrames :
    ((withLen 1025).inLen.toNat = 1025 ∧ (withLen 1025).bufSize < 1025) ∧
    ((withLen 6).inLen.toNat = 6 ∧ 6 ≤ (withLen 6).bufSize) ∧
    (∃ s, s = withInput [0x3B, 0x46, 0x46, 0x30, 0x31, 0x0D, 0x0A] ∧ s.inLen.toNat = 7 ∧ s.ibufAt 0 ≠ 0x3A) ∧
    (∃ s, s = withInput [0x3A, 0x46, 0x46, 0x30, 0x31, 0x0A, 0x0D] ∧ s.inLen.toNat = 7 ∧ s.ibufAt 0 = 0x3A ∧
      (s.ibufAt 5 ≠ 0x0D ∨ s.ibufAt 6 ≠ 0x0A)) ∧
    (∃ s, s = withInput [0x3A, 0x46, 0x46, 0x30, 0x31, 0x30, 0x0D, 0x0A] ∧ ascMarked s 8 ∧ (8 - 3) % 2 = 1) ∧
    (∃ s, s = withInput [0x3A, 0x32, 0x3A, 0x30, 0x31, 0x0D, 0x0A] ∧ ascMarked s 7 ∧ (7 - 3) % 2 = 0 ∧
      ∃ i < 7 - 3, hexVal (s.ibufAt (1 + i)) = none) := by
  refine ⟨by decide, by decide, ⟨_, rfl, by decide⟩, ⟨_, rfl, by decide⟩, ⟨_, rfl, by decide⟩,
    ⟨_, rfl, by decide, by decide, 1, by decide, by decide⟩⟩

/-- V-ASC-12 (LRC wrong) and V-ASC-11 (LRC right), both of the least length 7. -/
theorem witness_AscParseChecksAndExtracts :
    (∃ s, s = withInput [0x3A, 0x31, 0x31, 0x30, 0x30, 0x0D, 0x0A] ∧ ascMarked s 7 ∧
      hexDec ((s.inputBytes.take (7 - 2)).drop 1) = .ok [0x11, 0x00] ∧
      (0xEF : Byte) = lrc (([0x11, 0x00] : List Byte).take 1) ∧ ([0x11, 0x00] : List Byte)[1]? = some 0x00 ∧
      (0xEF : Byte) ≠ 0x00) ∧
    (∃ s, s = withInput [0x3A, 0x46, 0x46, 0x30, 0x31, 0x0D, 0x0A] ∧ ascMarked s 7 ∧
      hexDec ((s.inputBytes.take (7 - 2)).drop 1) = .ok [0xFF, 0x01] ∧
      (0x01 : Byte) = lrc (([0xFF, 0x01] : List Byte).take 1) ∧ ([0xFF, 0x01] : List Byte)[1]? = some 0x01) :=
  ⟨⟨_, rfl, by decide, rfl, by decide, rfl, by decide⟩, ⟨_, rfl, by decide, rfl, by decide, rfl⟩⟩

/-- The empty PDU (V-ASC-02), and its frame copied back. -/
theorem witness_AscRoundTrip :
    ∃ s t, s = ({ withInput [] with unit := 0x11 } : State) ∧
      2 * s.inLen.toNat + 7 ≤ s.bufSize ∧ exec .ascBuild s = .next t ∧
      (frameBack t).param = s.param ∧ (frameBack t).inLen = t.outLen ∧
      ∀ i < t.outLen.toNat, (frameBack t).ibufAt i = t.obufAt i :=
  ⟨_, _, rfl, by decide, rfl, by decide +kernel, by decide +kernel, by decide +kernel⟩

/-- V-LPF-04, V-LPF-05 and the ends of the ranges. -/
theorem witness_LpfBuildWritesTheFrame :
    (withLen 1017).inLen.toNat + 7 ≤ (withLen 1017).bufSize ∧
    (withLen 1025).bufSize < (withLen 1025).inLen.toNat ∧
    ((withLen 1018).inLen.toNat ≤ (withLen 1018).bufSize ∧ (withLen 1018).bufSize < (withLen 1018).inLen.toNat + 7) ∧
    ((withLen 1024).inLen.toNat ≤ (withLen 1024).bufSize ∧ (withLen 1024).bufSize < (withLen 1024).inLen.toNat + 7) := by
  decide

/-- The hypotheses `n` and `len` of the obligation, for a state. -/
abbrev lpfSizes (s : State) (n len : Nat) : Prop :=
  s.inLen.toNat = n ∧ len = (s.ibufAt 4).toNat * 256 + (s.ibufAt 5).toNat

/-- V-LPF-09 (the least frame), V-LPF-07, and the two length errors. -/
theorem witness_LpfParseChecksAndExtracts :
    (∃ s len, s = withLen 1025 ∧ lpfSizes s 1025 len ∧ s.bufSize < 1025) ∧
    (∃ s len, s = withLen 7 ∧ lpfSizes s 7 len ∧ 7 ≤ s.bufSize) ∧
    (∃ s, s = withInput [0x00, 0x05, 0x00, 0x00, 0x00, 0x06, 0x02, 0x01, 0x00] ∧ lpfSizes s 9 6 ∧ 9 ≤ s.bufSize ∧
      9 ≠ 6 + 6) ∧
    (∃ s, s = withInput [0x00, 0x01, 0x00, 0x00, 0x00, 0x02, 0x01, 0x83] ∧ lpfSizes s 8 2 ∧ 8 ≤ s.bufSize ∧
      8 = 2 + 6) :=
  ⟨⟨_, _, rfl, ⟨by decide, rfl⟩, by decide⟩, ⟨_, _, rfl, ⟨by decide, rfl⟩, by decide⟩, ⟨_, rfl, by decide⟩,
    ⟨_, rfl, by decide⟩⟩

/-- The least PDU that parses, 1 byte, and the empty one (V-LPF-01, V-LPF-03), copied back. -/
theorem witness_LpfRoundTrip :
    (∃ s t, s = withInput [0x01] ∧ s.inLen.toNat + 7 ≤ s.bufSize ∧ exec .lpfBuild s = .next t ∧
      (frameBack t).param = s.param ∧ (frameBack t).inLen = t.outLen ∧
      (∀ i < t.outLen.toNat, (frameBack t).ibufAt i = t.obufAt i) ∧ 1 ≤ s.inLen.toNat) ∧
    (∃ s t, s = withInput [] ∧ s.inLen.toNat + 7 ≤ s.bufSize ∧ exec .lpfBuild s = .next t ∧
      (frameBack t).param = s.param ∧ (frameBack t).inLen = t.outLen ∧
      (∀ i < t.outLen.toNat, (frameBack t).ibufAt i = t.obufAt i) ∧ s.inLen.toNat = 0) :=
  ⟨⟨_, _, rfl, by decide, rfl, by decide, by decide, by decide, by decide⟩,
    ⟨_, _, rfl, by decide, rfl, by decide, by decide, by decide, by decide⟩⟩

/-- An increment, a build without one, and another instruction. -/
theorem witness_TidChangesOnlyByTheIncrement :
    (∃ s t, s = ({ withInput [0x01] with tid := 0xFFFF, tidinc := true } : State) ∧
      exec .lpfBuild s = .next t ∧ t.err = .none ∧ s.tidinc = true) ∧
    (∃ s t, s = withInput [0x01] ∧ exec .lpfBuild s = .next t ∧
      ¬(Instr.lpfBuild = .lpfBuild ∧ t.err = .none ∧ s.tidinc = true)) ∧
    (∃ t, exec .nop State.reset = .next t ∧ ¬(Instr.nop = .lpfBuild ∧ t.err = .none ∧ State.reset.tidinc = true)) :=
  ⟨⟨_, _, rfl, rfl, by decide, by decide⟩, ⟨_, _, rfl, rfl, by decide⟩, ⟨_, rfl, by decide⟩⟩

/-- An illegal command, and a checksum error of each kind (V-RTU-06, V-ASC-12). -/
theorem witness_FailedCommandsArePrecise :
    (∃ t, isCommand .reservedB = true ∧ exec .reservedB State.reset = .next t ∧ t.err ≠ .none ∧ t.err ≠ .checksum) ∧
    (∃ t, isCommand .rtuParse = true ∧
      exec .rtuParse (withInput [0x01, 0x05, 0x00, 0x64, 0xFF, 0x00, 0xCD, 0xE4]) = .next t ∧ t.err = .checksum) ∧
    (∃ t, isCommand .ascParse = true ∧
      exec .ascParse (withInput [0x3A, 0x31, 0x31, 0x30, 0x30, 0x0D, 0x0A]) = .next t ∧ t.err = .checksum) :=
  ⟨⟨_, rfl, rfl, by decide, by decide⟩, ⟨_, rfl, rfl, by decide +kernel⟩, ⟨_, rfl, rfl, by decide⟩⟩

theorem witness_AccumulatorsChangeOnlyByTheirOwn :
    (∃ t, exec (.crcDin 0x02 0) State.reset = .next t ∧ t.crcAcc ≠ State.reset.crcAcc) ∧
    (∃ t, exec (.lrcDin 0x02 0) State.reset = .next t ∧ t.lrcSum ≠ State.reset.lrcSum) :=
  ⟨⟨_, rfl, by decide⟩, ⟨_, rfl, by decide⟩⟩

theorem witness_OutLenCountsTheOutput :
    (∃ t, isCommand .reservedB = true ∧ exec .reservedB State.reset = .next t ∧ t.err ≠ .none) ∧
    (∃ t, isCommand .nop = true ∧ exec .nop State.reset = .next t ∧ t.err = .none ∧ isFrameCommand .nop = false) ∧
    (∃ t, isCommand .lpfBuild = true ∧ exec .lpfBuild State.reset = .next t ∧ t.err = .none ∧
      isFrameCommand .lpfBuild = true) :=
  ⟨⟨_, rfl, rfl, by decide⟩, ⟨_, rfl, rfl, by decide, rfl⟩, ⟨_, rfl, rfl, by decide, rfl⟩⟩

theorem witness_NoInstructionWritesIbuf :
    State.reset.legalBufSize ∧ (∃ t, exec .lpfBuild State.reset = .next t) ∧ 1023 < State.reset.bufSize :=
  ⟨by decide, ⟨_, rfl⟩, by decide⟩

/-- A failed frame command, a command that is none, and the bytes just below OBUF and at OUT_LEN after a success. -/
theorem witness_CommandsWriteOnlyTheirOutput :
    (∃ t, exec .rtuParse State.reset = .next t ∧ t.err ≠ .none) ∧
    (∃ t, exec .nop State.reset = .next t ∧ isFrameCommand .nop = false) ∧
    (∃ t, exec .lpfBuild State.reset = .next t ∧ t.err = .none ∧
      ∀ a ∈ [0x1FFF, 0x2007], a < Config.obufBase ∨ Config.obufBase + t.outLen.toNat ≤ a) :=
  ⟨⟨_, rfl, by decide⟩, ⟨_, rfl, rfl⟩, ⟨_, rfl, by decide, by decide⟩⟩

/-- Two memories that differ in the first byte that is not input. -/
theorem witness_InputBeyondInLenIsNotRead :
    ∃ s m, s = withInput [0x01, 0x02] ∧ m = Memory.insert s.mem (Config.ibufBase + 2) 0xFF ∧
      isCommand .rtuBuild = true ∧ ∀ k < s.inLen.toNat, ({ s with mem := m } : State).ibufAt k = s.ibufAt k :=
  ⟨_, _, rfl, rfl, rfl, by decide⟩

theorem witness_RegisterReadReturnsItsValue :
    (idle [rd 0x04C]).busy = false ∧ (idle [rd 0x04C]).resetIn = false ∧
    (idle [rd 0x04C]).nextLine (.rd (regOffset .rxLen)) [] := by decide

theorem witness_BufferReadReturnsThePackedWord :
    State.reset.legalBufSize ∧ 4 * 255 < State.reset.bufSize ∧
    (idle [rd 0x13FC]).busy = false ∧ (idle [rd 0x13FC]).resetIn = false ∧
    (idle [rd 0x13FC]).nextLine (.rd (0x1000 + 4 * 255)) [] ∧
    (idle [rd 0x23FC]).nextLine (.rd (0x2000 + 4 * 255)) [] := by decide

theorem witness_ReadWhileBusy :
    (busyWith 5 []).legalBufSize ∧ (busyWith 5 []).busy = true ∧ (busyWith 5 []).resetIn = false ∧
    (mappedWord 1024 0x00C ∧ (busyWith 5 [rd 0x00C]).nextLine (.rd 0x00C) [] ∧ 0x00C = regOffset .status) ∧
    (mappedWord 1024 0x010 ∧ (busyWith 5 [rd 0x010]).nextLine (.rd 0x010) []) ∧
    (mappedWord 1024 0x23FC ∧ (busyWith 5 [rd 0x23FC]).nextLine (.rd 0x23FC) []) := by decide

theorem witness_WriteWhileBusyIsDropped :
    (busyWith 5 []).legalBufSize ∧ (busyWith 5 []).busy = true ∧ (busyWith 5 []).resetIn = false ∧
    (mappedWord 1024 0x008 ∧ (busyWith 5 [wr 0x008 6]).nextLine (.wr 0x008 6) [] ∧
      ¬(0x008 = 0x008 ∧ (6#32).getLsbD 0 = true)) ∧
    (mappedWord 1024 0x13FC ∧ (busyWith 5 [wr 0x13FC 1]).nextLine (.wr 0x13FC 1) [] ∧
      ¬(0x13FC = 0x008 ∧ (1#32).getLsbD 0 = true)) := by decide

theorem witness_IbufWriteSetsFourBytes :
    State.reset.legalBufSize ∧ 4 * 255 < State.reset.bufSize ∧
    (idle [wr 0x13FC 7]).busy = false ∧ (idle [wr 0x13FC 7]).resetIn = false ∧
    (idle [wr 0x13FC 7]).nextLine (.wr (0x1000 + 4 * 255) 7) [] := by decide

theorem witness_WritesToReadOnlyWordsAreIgnored :
    State.reset.legalBufSize ∧ (idle []).busy = false ∧ (idle []).resetIn = false ∧
    ((idle [wr 0x000 7]).nextLine (.wr 0x000 7) [] ∧ 0x000 = regOffset .id) ∧
    ((idle [wr 0x23FC 7]).nextLine (.wr 0x23FC 7) [] ∧ 4 * 255 < State.reset.bufSize ∧ 0x23FC = 0x2000 + 4 * 255) := by
  decide

theorem witness_RegisterWritesSetTheirField :
    (idle []).busy = false ∧ (idle []).resetIn = false ∧
    (idle [wr 0x014 0xFFFFFFFF]).nextLine (.wr 0x014 0xFFFFFFFF) [] ∧
    (idle [wr 0x01C 0xFFFFFFFF]).nextLine (.wr 0x01C 0xFFFFFFFF) [] ∧
    (idle [wr 0x020 0xFFFFFFFF]).nextLine (.wr 0x020 0xFFFFFFFF) [] ∧
    (idle [wr 0x024 0xFFFFFFFF]).nextLine (.wr 0x024 0xFFFFFFFF) [] ∧
    (idle [wr 0x02C 0xFFFFFFFF]).nextLine (.wr 0x02C 0xFFFFFFFF) [] ∧
    ((idle [wr 0x008 0xFFFFFFFE]).nextLine (.wr 0x008 0xFFFFFFFE) [] ∧ (0xFFFFFFFE#32).getLsbD 0 = false) := by decide

theorem witness_StatusWriteClearsFlags :
    (idle [wr 0x00C 6]).busy = false ∧ (idle [wr 0x00C 6]).resetIn = false ∧
    (idle [wr 0x00C 6]).nextLine (.wr 0x00C 6) [] := by decide

/-- A running command (P8) and an idle block. -/
theorem witness_SoftResetResetsTheRegisters :
    (busyWith 5 [wr 0x008 7]).resetIn = false ∧ (busyWith 5 [wr 0x008 7]).nextLine (.wr 0x008 7) [] ∧
    (7#32).getLsbD 0 = true ∧ (idle [wr 0x008 1]).nextLine (.wr 0x008 1) [] := by decide

/-- A size, a misaligned offset, and the first and last unmapped words of each hole (20_memory.md R65). -/
theorem witness_BadAccessIsABusError :
    State.reset.legalBufSize ∧ State.reset.resetIn = false ∧ (0x3FFC : Nat) < 0x4000 ∧ (2 : Nat) ≠ 4 ∧
    (idle [.host { addr := 0x3FFC, size := 4, op := .read }]).turns =
      .host { addr := (idle []).base + 0x3FFC, size := 4, op := .read } :: [] ∧
    ∀ off ∈ [0x002, 0x050, 0xFFC, 0x1400, 0x1FFC, 0x2400, 0x2FFC, 0x3000, 0x3FFC], ¬mappedWord 1024 off := by decide

theorem witness_OnlyRefusedAccessesFault :
    State.reset.legalBufSize ∧ mappedWord 1024 0x04C ∧ mappedWord 1024 0x23FC ∧
    (idle [rd 0x04C]).turns = .host { addr := (idle [rd 0x04C]).base + 0x04C, size := 4, op := .read } :: [] ∧
    ∀ a ts, (idle [.engine]).turns ≠ .host a :: ts :=
  ⟨by decide, by decide, by decide, by decide, by simp [idle]⟩

theorem witness_HostAccessesNeverChangeObuf :
    ∃ s t a, s = idle [wr 0x2000 7] ∧ s.legalBufSize ∧ s.turns = .host a :: [] ∧ step s = .next t ∧ 0 < s.bufSize :=
  ⟨_, _, _, rfl, by decide, rfl, rfl, by decide⟩

theorem witness_PowerOnResetGivesTheTable :
    (busyWith 5 [.resetAssert]).turns = .resetAssert :: [] ∧
    (∃ s a, s = ({ idle [rd 0x000] with resetIn := true } : State) ∧ s.resetIn = true ∧ s.turns = .host a :: []) ∧
    (∃ s, s = ({ idle [.engine] with resetIn := true } : State) ∧ s.resetIn = true ∧ s.turns = .engine :: []) ∧
    (∃ s, s = ({ idle [.resetRelease] with resetIn := true } : State) ∧ s.resetIn = true ∧
      s.turns = .resetRelease :: []) :=
  ⟨rfl, ⟨_, _, rfl, rfl, rfl⟩, ⟨_, rfl, rfl, rfl⟩, ⟨_, rfl, rfl, rfl⟩⟩

theorem witness_InterruptFollowsCompletion :
    (∃ t, isCommand .nop = true ∧ exec .nop { State.reset with ie := true } = .next t) ∧
    (∃ s t, s = idle [wr 0x010 5] ∧ s.busy = false ∧ s.resetIn = false ∧ step s = .next t ∧
      s.nextLine (.wr 0x010 5) []) ∧
    (∃ s t, s = idle [wr 0x00C 2] ∧ step s = .next t ∧ s.nextLine (.wr 0x00C 2) [] ∧ (2#32).getLsbD 1 = true) ∧
    (∃ s t, s = idle [wr 0x008 4] ∧ step s = .next t ∧ s.nextLine (.wr 0x008 4) [] ∧ (4#32).getLsbD 1 = false) :=
  ⟨⟨_, rfl, rfl⟩, ⟨_, _, rfl, rfl, rfl, rfl, by decide⟩, ⟨_, _, rfl, rfl, by decide, by decide⟩,
    ⟨_, _, rfl, rfl, by decide, by decide⟩⟩

theorem witness_WerrIsSetOnlyByADroppedWrite :
    ∃ s t, s = busyWith 5 [rd 0x00C] ∧ s.werr = false ∧ s.writeHazard = false ∧ step s = .next t :=
  ⟨_, _, rfl, rfl, by decide, rfl⟩

theorem witness_NoStepChangesTheParameters : ∃ s t, s = busyWith 5 [.engine] ∧ step s = .next t := ⟨_, _, rfl, rfl⟩

/-- A state that meets the invariant and takes a step: a running command at its completion. -/
theorem witness_EveryStepKeepsTheInvariant : ∃ s t, s = busyWith 5 [.engine] ∧ s.Inv ∧ step s = .next t :=
  ⟨_, _, rfl, by constructor <;> decide, rfl⟩

end Sys2Proof.Tests
end

section
/-! SUPPORT. What a host write can do, said once, the port writes included (20_memory.md R64, 70_reset_and_hazards.md R262). -/

namespace Sys2Proof.Machine

/-- `t` has the parameters of `s`, and its buffers, unwritten bytes included. -/
structure SameParamsAndBuffers (s t : State) : Prop where
  param : t.param = s.param
  base : t.base = s.base
  mem : t.mem = s.mem
  powerOns : t.powerOns = s.powerOns

theorem SameParamsAndBuffers.obufAt {s t : State} (h : SameParamsAndBuffers s t) (k : Nat) :
    t.obufAt k = s.obufAt k :=
  State.readByte_congr s t _ (by rw [h.mem]) h.powerOns

theorem writeReg_sameParamsAndBuffers (s : State) (r : Reg) (v : Word) :
    SameParamsAndBuffers s (s.writeReg r v) := by
  cases r with
  | ctrl =>
    simp only [State.writeReg]
    split <;> exact ⟨rfl, rfl, rfl, rfl⟩
  | _ => exact ⟨rfl, rfl, rfl, rfl⟩

/-- A host write stores its four bytes in an IBUF word, or leaves the parameters and the buffers alone. -/
theorem hostWrite_cases (t : Target) (off : Nat) (v : Word) (s : State) :
    SameParamsAndBuffers s (hostWrite t off v s) ∨
      (t = .ibuf ∧ hostWrite t off v s = s.storeBytes off (unpackWord v)) := by
  unfold hostWrite
  split
  · exact .inl ⟨rfl, rfl, rfl, rfl⟩
  · split
    · exact .inl ⟨rfl, rfl, rfl, rfl⟩
    · cases t with
      | reg r => exact .inl (writeReg_sameParamsAndBuffers s r v)
      | ibuf => exact .inr ⟨rfl, rfl⟩
      | obuf => exact .inl ⟨rfl, rfl, rfl, rfl⟩

@[simp] theorem hostWrite_param (t : Target) (off : Nat) (v : Word) (s : State) :
    (hostWrite t off v s).param = s.param := by
  rcases hostWrite_cases t off v s with h | ⟨-, h⟩
  · exact h.param
  · rw [h, State.storeBytes_param]

@[simp] theorem hostWrite_base (t : Target) (off : Nat) (v : Word) (s : State) :
    (hostWrite t off v s).base = s.base := by
  rcases hostWrite_cases t off v s with h | ⟨-, h⟩
  · exact h.base
  · rw [h, State.storeBytes_base]

/-- No host write of a mapped word reaches OBUF: a word of IBUF ends below it. -/
theorem hostWrite_obufAt (t : Target) (off : Nat) (v : Word) (s : State) (k : Nat) (hb : s.legalBufSize)
    (ht : accessTarget s.bufSize 4 off = some t) : (hostWrite t off v s).obufAt k = s.obufAt k := by
  rcases hostWrite_cases t off v s with h | ⟨rfl, h⟩
  · exact h.obufAt k
  · have hoff := offset_of_accessTarget_ibuf s.bufSize 4 off hb.1 ht
    rw [h]
    refine State.readByte_storeBytes_outside s off _ _ (.inr ?_)
    simp only [length_unpackWord, State.legalBufSize, Config.ibufBase, Config.obufBase] at *
    omega

/-- While no command runs a host write is its target's write action, a soft reset included (44_control.md R210). -/
theorem hostWrite_idle (t : Target) (off : Nat) (v : Word) (s : State) (hb : s.busy = false) :
    hostWrite t off v s = s.writeTarget t off v := by
  unfold hostWrite
  split
  · rename_i hs
    obtain ⟨rfl, hv⟩ : t = .reg .ctrl ∧ v.getLsbD 0 = true := by simpa [isSoftReset] using hs
    simp only [State.writeTarget, State.writeReg, hv, if_true]
  · rw [if_neg (by simp [hb])]

/-- A port write's instruction has the effect of any other host write: dropped while a command runs, else its register's
write action (30_encoding.md R81, 70_reset_and_hazards.md R267). -/
theorem runAction_write (t : Target) (off : Nat) (v : Word) (s : State) :
    runAction (accessTargetAction t off (.write v) s) = .next (hostWrite t off v s) := by
  unfold accessTargetAction
  split
  · rename_i h; cases h
  · rename_i h; cases h; rfl
  · rename_i h; cases h; rfl
  · rename_i h _ _; cases h; rfl

/-- The three ways a host access ends in a next state: not answered, a read, or the write of a mapped word. -/
inductive HostEnd (s t : State) : Prop where
  | unanswered (eq : t = s)
  | read (target : Target) (off : Nat) (eq : t = hostRead target off s)
  | write (target : Target) (off : Nat) (v : Word) (mapped : accessTarget s.bufSize 4 off = some target)
      (eq : t = hostWrite target off v s)

theorem hostAccess_ends (a : Access) (s t : State) (h : runAction (hostAccess a s) = .next t) : HostEnd s t := by
  unfold hostAccess at h
  split at h
  · injection h with h
    exact .unanswered h.symm
  · rename_i off _
    split at h
    · injection h with h
      exact .unanswered h.symm
    · split at h
      · exact absurd h (by simp)
      · rename_i target ht
        rw [accessTarget_size _ _ _ _ ht] at ht
        cases hop : a.op with
        | read =>
          rw [hop] at h
          injection h with h
          exact .read target off h.symm
        | write v =>
          rw [hop, runAction_write] at h
          injection h with h
          exact .write target off v ht h.symm

/-- The step of a host turn, by the way its access ends. -/
theorem hostTurn_ends (s t : State) (a : Access) (ts : List Turn) (hturn : s.turns = .host a :: ts)
    (h : step s = .next t) : HostEnd { s with turns := ts, reply := none } t := by
  rw [step_cons s _ ts hturn] at h
  exact hostAccess_ends a _ t h

end Sys2Proof.Machine
end

section
/-! Host writes that the block ignores, and what no host access changes (10_state.md R26, R48; 20_memory.md R64). -/

namespace Sys2Proof.Machine

/-- The read-only registers of 10_state.md R26. -/
def readOnlyRegs : List Reg :=
  [.id, .param, .outLen, .lrcVal, .chkCalc, .chkRx, .rxUnit, .rxTid, .rxPid, .rxLen]

theorem writeReg_readOnly (s : State) (r : Reg) (v : Word) (h : r ∈ readOnlyRegs) : s.writeReg r v = s := by
  fin_cases h <;> rfl

theorem regOffset_le (r : Reg) : regOffset r ≤ 0x04C := by cases r <;> decide

/-- A word of OBUF is mapped, and no register and no word of IBUF lies there. -/
theorem accessTarget_obuf (bufSize k : Nat) (hb : bufSize % 4 = 0 ∧ 520 ≤ bufSize ∧ bufSize ≤ 4096)
    (hk : 4 * k < bufSize) : accessTarget bufSize 4 (0x2000 + 4 * k) = some .obuf := by
  have hmapped : mappedWord bufSize (0x2000 + 4 * k) := by
    simp only [mappedWord, inBuffers, Config.ibufBase, Config.obufBase]
    omega
  obtain ⟨t, ht⟩ := accessTarget_of_mapped bufSize _ hb hmapped
  cases t with
  | reg r =>
    have hoff := offset_of_accessTarget_reg _ _ _ _ ht
    have hle := regOffset_le r
    omega
  | ibuf =>
    have hoff := offset_of_accessTarget_ibuf _ _ _ hb.1 ht
    simp only [Config.ibufBase] at hoff
    omega
  | obuf => exact ht

/-- The step of a host write at a mapped offset while no command runs (20_memory.md R64). -/
theorem step_wr_idle (s : State) (off : Nat) (v : Word) (ts : List Turn) (t : Target)
    (hturn : s.nextLine (.wr off v) ts) (hin : s.resetIn = false) (hb : s.busy = false)
    (ho : off < Config.windowSize) (ht : accessTarget s.bufSize 4 off = some t) :
    step s = .next (State.writeTarget { s with turns := ts, reply := none } t off v) := by
  rw [step_wr s off v ts t hturn hin ho ht, runAction_write, hostWrite_idle]
  exact hb

/-- Settles O47, by the target of the written word: a read-only register or a word of OBUF. -/
theorem writesToReadOnlyWordsAreIgnored : Obligations.WritesToReadOnlyWordsAreIgnored := by
  rintro s ts off v hbuf hbusy hin hturn (⟨r, hr, rfl⟩ | ⟨k, hk, rfl⟩)
  · rw [step_wr_idle s _ v ts (.reg r) hturn hin hbusy (regOffset_lt r) (accessTarget_reg _ r)]
    exact congrArg _ (writeReg_readOnly _ r v hr)
  · have hoff : 0x2000 + 4 * k < Config.windowSize := by
      obtain ⟨-, -, hmax⟩ := hbuf
      simp only [Config.windowSize]
      omega
    exact step_wr_idle s _ v ts .obuf hturn hin hbusy hoff (accessTarget_obuf _ k hbuf hk)

/-- Settles O53, by the ways a host access ends: only a write stores bytes, and only below OBUF. -/
theorem hostAccessesNeverChangeObuf : Obligations.HostAccessesNeverChangeObuf := by
  intro s t a ts k hbuf hturn h _
  cases hostTurn_ends s t a ts hturn h with
  | unanswered eq => rw [eq]; rfl
  | read target off eq =>
    obtain ⟨r, n, hread⟩ := hostRead_changes target off { s with turns := ts, reply := none }
    rw [eq, hread]; rfl
  | write target off v mapped eq =>
    rw [eq]
    exact hostWrite_obufAt target off v { s with turns := ts, reply := none } k hbuf mapped

end Sys2Proof.Machine
end

section
/-! What every step keeps: the parameters BUF_SIZE and BASE (00_scope.md R8, 10_state.md R28), and WERR = 0 unless a host
write is dropped (10_state.md R30, 70_reset_and_hazards.md R262). -/

namespace Sys2Proof.Machine

theorem CommandEnd.params {i : Instr} {s t : State} (h : CommandEnd i s t) :
    t.param = s.param ∧ t.base = s.base := by
  cases h with
  | failed _ _ _ _ eq => rw [eq]; exact ⟨rfl, rfl⟩
  | quiet _ _ eq => rw [eq]; exact ⟨rfl, rfl⟩
  | output _ _ _ _ _ _ _ _ eq => rw [eq]; exact ⟨rfl, rfl⟩

theorem CommandEnd.werr {i : Instr} {s t : State} (h : CommandEnd i s t) : t.werr = s.werr := by
  cases h with
  | failed _ _ _ _ eq => rw [eq]; rfl
  | quiet _ _ eq => rw [eq]; rfl
  | output _ _ _ _ _ _ _ _ eq => rw [eq]; rfl

theorem exec_port_params (i : Instr) (s t : State) (hc : isCommand i = false) (h : exec i s = .next t) :
    t.param = s.param ∧ t.base = s.base := by
  rcases exec_port_ends i s t hc h with ⟨-, rfl⟩ | ⟨-, ⟨_, _, -, rfl⟩ | ⟨_, _, -, rfl⟩⟩ <;> exact ⟨rfl, rfl⟩

/-- Settles O58, by the ways a step ends. -/
theorem noStepChangesTheParameters : Obligations.NoStepChangesTheParameters := by
  intro s t h
  cases step_ends s t h with
  | quiet _ _ eq => rw [eq]; exact ⟨rfl, rfl⟩
  | command _ i _ _ isCmd eq => exact (exec_command_ends i _ t isCmd eq).params
  | port _ i _ isPort _ eq =>
    have hp := exec_port_params i _ t isPort eq
    exact hp
  | read _ _ _ eq => rw [eq]; exact ⟨rfl, rfl⟩
  | write _ _ _ _ _ _ _ eq => rw [eq]; exact ⟨hostWrite_param .., hostWrite_base ..⟩
  | resetAssert _ eq => rw [eq]; exact ⟨rfl, rfl⟩
  | resetRelease _ eq => rw [eq]; exact ⟨rfl, rfl⟩

theorem writeReg_werr_of_clear (s : State) (r : Reg) (v : Word) (hw : s.werr = false) :
    (s.writeReg r v).werr = false := by
  cases r with
  | ctrl =>
    simp only [State.writeReg]
    split
    · rfl
    · exact hw
  | status => simp [State.writeReg, hw]
  | cmd => rfl
  | _ => exact hw

theorem writeTarget_werr_of_clear (s : State) (t : Target) (off : Nat) (v : Word) (hw : s.werr = false) :
    (s.writeTarget t off v).werr = false := by
  cases t with
  | reg r => exact writeReg_werr_of_clear s r v hw
  | ibuf => exact hw
  | obuf => exact hw

/-- A host write that is not dropped does not set WERR. -/
theorem hostWrite_werr_of_clear (t : Target) (off : Nat) (v : Word) (s : State) (hw : s.werr = false)
    (hkept : isSoftReset t v = false → s.busy = false) : (hostWrite t off v s).werr = false := by
  cases hs : isSoftReset t v with
  | true => simp [hostWrite, hs]
  | false =>
    rw [hostWrite_idle t off v s (hkept hs)]
    exact writeTarget_werr_of_clear s t off v hw

/-- Without the write hazard, a host write other than a soft reset finds no command running. -/
theorem not_busy_of_no_writeHazard (s : State) (t : Target) (v : Word) (hz : s.writeHazard = false)
    (hnext : s.nextTarget = some (t, .write v)) (hs : isSoftReset t v = false) : s.busy = false := by
  simpa [State.writeHazard, hnext, hs] using hz

/-- Settles O57, by the ways a step ends. -/
theorem werrIsSetOnlyByADroppedWrite : Obligations.WerrIsSetOnlyByADroppedWrite := by
  intro s t hw hz h
  cases step_ends s t h with
  | quiet _ _ eq => rw [eq]; exact hw
  | command _ i _ _ isCmd eq => exact (exec_command_ends i _ t isCmd eq).werr.trans hw
  | port _ i _ isPort next eq =>
    obtain ⟨target, v, hnext, hs⟩ := next
    have hidle : s.busy = false := not_busy_of_no_writeHazard s target v hz hnext hs
    rcases exec_port_ends i _ t isPort eq with ⟨hbusy, -⟩ | ⟨-, ⟨_, _, -, rfl⟩ | ⟨_, _, -, rfl⟩⟩
    · exact absurd (hidle.symm.trans hbusy) (by decide)
    · exact hw
    · exact hw
  | read _ _ _ eq => rw [eq]; exact hw
  | write _ target off v _ _ next eq =>
    rw [eq]
    exact hostWrite_werr_of_clear target off v _ hw (not_busy_of_no_writeHazard s target v hz next)
  | resetAssert _ eq => rw [eq]; rfl
  | resetRelease _ eq => rw [eq]; rfl

end Sys2Proof.Machine
end

section
/-! The host's accesses to the buffers while no command runs, and the accesses that the block refuses (20_memory.md R61 to
R66). -/

namespace Sys2Proof.Machine

/-- A refused access in the window ends the step in its bus error (20_memory.md R66). -/
theorem step_host_refused (s : State) (off size : Nat) (op : AccessOp) (ts : List Turn)
    (hturn : s.turns = .host { addr := s.base + off, size := size, op := op } :: ts) (hin : s.resetIn = false)
    (ho : off < Config.windowSize) (ht : accessTarget s.bufSize size off = none) :
    step s = .fault (.busError off) := by
  rw [step_cons s _ ts hturn, turnAction]
  exact congrArg runAction (hostAccess_refused ⟨s.base + off, size, op⟩ { s with turns := ts, reply := none } off hin
    (windowOffset_base s.base off ho) ht)

/-- Settles O51: the address decode has no target for such an access. -/
theorem badAccessIsABusError : Obligations.BadAccessIsABusError := by
  intro s ts off size op hbuf hin ho hturn hbad
  exact step_host_refused s off size op ts hturn hin ho ((accessTarget_none_iff _ size off hbuf).2 hbad)

/-- No register lies above RX_LEN (10_state.md section 3). -/
theorem regAt_eq_none (off : Nat) (h : 0x04C < off) : regAt off = none := by
  refine Option.eq_none_iff_forall_ne_some.2 fun r hr => ?_
  have hoff := regOffset_of_regAt off r hr
  have hle := regOffset_le r
  omega

/-- Every offset with a target lies in the window (20_memory.md R60). -/
theorem lt_windowSize_of_accessTarget (bufSize size off : Nat) (t : Target)
    (hb : bufSize % 4 = 0 ∧ 520 ≤ bufSize ∧ bufSize ≤ 4096) (ht : accessTarget bufSize size off = some t) :
    off < Config.windowSize := by
  refine mappedWord_lt bufSize off hb.2.2 (of_not_not fun hunmapped => ?_)
  have hnone := (accessTarget_none_iff bufSize size off hb).2 (.inr hunmapped)
  exact absurd (ht.symm.trans hnone) (by simp)

/-- A word of IBUF is decoded as such. -/
theorem accessTarget_ibuf (bufSize k : Nat) (hk : 4 * k < bufSize) :
    accessTarget bufSize 4 (0x1000 + 4 * k) = some .ibuf := by
  have haligned : (0x1000 + 4 * k) % 4 = 0 := by omega
  have hreg : regAt (0x1000 + 4 * k) = none := regAt_eq_none _ (by omega)
  simp [accessTarget, targetAt, haligned, hreg, Config.ibufBase, hk]

/-- A host read while no command runs replies the value of its target (20_memory.md R63). -/
theorem hostRead_idle (t : Target) (off : Nat) (s : State) (hb : s.busy = false) :
    hostRead t off s = { s with reply := some (s.readTarget t off) } := by
  simp [hostRead, hb]

theorem toNat_append_byte {n : Nat} (x : BitVec n) (b : Byte) : (x ++ b).toNat = x.toNat * 2 ^ 8 + b.toNat := by
  rw [BitVec.toNat_append, ← Nat.shiftLeft_add_eq_or_of_lt b.isLt, Nat.shiftLeft_eq]

/-- The value of a buffer word, byte 0 least significant (20_memory.md R62). -/
theorem toNat_packWord (b0 b1 b2 b3 : Byte) :
    (packWord b0 b1 b2 b3).toNat = b0.toNat + b1.toNat * 2 ^ 8 + b2.toNat * 2 ^ 16 + b3.toNat * 2 ^ 24 := by
  simp only [packWord, toNat_append_byte]
  omega

/-- A read of a mapped word of the buffers while no command runs returns the packed word (20_memory.md R62, R63). -/
theorem step_rd_buffer (s : State) (off : Nat) (ts : List Turn) (t : Target) (hbuffer : t = .ibuf ∨ t = .obuf)
    (hturn : s.nextLine (.rd off) ts) (hbuf : s.legalBufSize) (hin : s.resetIn = false) (hb : s.busy = false)
    (ht : accessTarget s.bufSize 4 off = some t) :
    step s = .next { s with turns := ts, reply := some (s.readWord off) } := by
  have ho := lt_windowSize_of_accessTarget _ _ off t hbuf ht
  rw [step_rd s off ts t hturn hin ho ht, hostRead_idle t off { s with turns := ts, reply := none } hb]
  rcases hbuffer with rfl | rfl <;> rfl

/-- Settles O43, by the buffer that the word lies in. -/
theorem bufferReadReturnsThePackedWord : Obligations.BufferReadReturnsThePackedWord := by
  intro s ts k hbuf hk hb hin
  constructor
  · exact fun hturn => ⟨s.readWord (0x1000 + 4 * k), step_rd_buffer s _ ts .ibuf (.inl rfl) hturn hbuf hin hb
      (accessTarget_ibuf _ k hk), toNat_packWord _ _ _ _⟩
  · exact fun hturn => ⟨s.readWord (0x2000 + 4 * k), step_rd_buffer s _ ts .obuf (.inr rfl) hturn hbuf hin hb
      (accessTarget_obuf _ k hbuf hk), toNat_packWord _ _ _ _⟩

/-- Byte `j` of a bus word as a number (20_memory.md R62). -/
theorem toNat_getElem_unpackWord (v : Word) (j : Nat) (hj : j < (unpackWord v).length) :
    ((unpackWord v)[j]).toNat = v.toNat / 2 ^ (8 * j) % 256 := by
  rw [length_unpackWord] at hj
  interval_cases j <;> simp [unpackWord, Nat.shiftRight_eq_div_pow]

/-- Settles O46: the step stores the four bytes of the word at its offset. -/
theorem ibufWriteSetsFourBytes : Obligations.IbufWriteSetsFourBytes := by
  intro s ts k v hbuf hk hb hin hturn
  have ht := accessTarget_ibuf s.bufSize k hk
  have ho := lt_windowSize_of_accessTarget _ _ _ _ hbuf ht
  refine ⟨_, step_wr_idle s _ v ts .ibuf hturn hin hb ho ht, fun j hj => ?_, fun a ha => ?_, rfl⟩
  · have hread := State.readByte_storeBytes_inside { s with turns := ts, reply := none } (0x1000 + 4 * k)
      (unpackWord v) j hj
    rw [← toNat_getElem_unpackWord v j hj, ← hread, Nat.add_assoc]
    rfl
  · exact State.readByte_storeBytes_outside { s with turns := ts, reply := none } _ (unpackWord v) a ha

end Sys2Proof.Machine
end

section
/-! The decoder of commands (30_encoding.md R87): reserved bits first, whatever OP, then the opcode map. -/

namespace Sys2Proof.Machine

/-- Bits [31:4] of a word as a number. -/
theorem toNat_reservedBits (v : Word) : (v.extractLsb' 4 28).toNat = v.toNat / 16 := by
  have hfit : v.toNat / 16 < 2 ^ 28 := by have hv := v.isLt; omega
  rw [BitVec.extractLsb'_toNat, Nat.shiftRight_eq_div_pow]
  exact Nat.mod_eq_of_lt hfit

theorem reservedBits_eq_zero_iff (v : Word) : v.extractLsb' 4 28 = 0 ↔ v.toNat / 16 = 0 := by
  rw [← BitVec.toNat_inj, toNat_reservedBits]
  rfl

/-- With no reserved bit set, OP is the whole word. -/
theorem toNat_op_of_no_reservedBits (v : Word) (h : v.toNat / 16 = 0) : (v.extractLsb' 0 4).toNat = v.toNat := by
  have hsmall : v.toNat < 2 ^ 4 := by omega
  rw [BitVec.extractLsb'_toNat, Nat.shiftRight_zero, Nat.mod_eq_of_lt hsmall]

theorem decodeCommand_of_reservedBits (v : Word) (h : v.toNat / 16 ≠ 0) :
    decodeCommand v = .illegalRsvbits (v.extractLsb' 4 28) (v.extractLsb' 0 4) :=
  if_neg (mt (reservedBits_eq_zero_iff v).1 h)

theorem decodeCommand_of_no_reservedBits (v : Word) (h : v.toNat / 16 = 0) :
    decodeCommand v = decodeOp (v.extractLsb' 0 4) :=
  if_pos ((reservedBits_eq_zero_iff v).2 h)

/-- The map from OP to instructions is the table of R82 and R85, at each of its sixteen entries. -/
theorem opcodeMap_getElem?_op : ∀ op : BitVec 4, opcodeMap[op.toNat]? = some (decodeOp op) := by decide

/-- Settles O4, by whether a reserved bit is set. -/
theorem commandDecoderFollowsTheOpcodeMap : Obligations.CommandDecoderFollowsTheOpcodeMap := by
  intro v
  constructor
  · exact fun h => ⟨_, _, decodeCommand_of_reservedBits v h⟩
  · intro h
    rw [decodeCommand_of_no_reservedBits v h, ← opcodeMap_getElem?_op, toNat_op_of_no_reservedBits v h]

end Sys2Proof.Machine
end


section
/-! The commands of the checksum family, and the completion they end in (40_bytes_and_checksum.md R107, R114 to R118;
44_control.md R203). -/

namespace Sys2Proof.Machine

/-- The completion of a body that ends normally (44_control.md R203). -/
theorem completion_ok (s : State) :
    completion (.ok s) = .next { s with err := .none, det := .none, busy := false, done := true } := rfl

/-- The completion of a body that fails without a write of its own (60_exceptions.md R226). -/
theorem completion_raiseErr (s : State) (c : ErrCat) (d : ErrDet) :
    completion (raiseErr s c d) = .next (failedWith s c d) := rfl

theorem exec_crcInit (s : State) : exec .crcInit s = completion (.ok { s with crcAcc := 0xFFFF }) := rfl

theorem exec_crcBuf (s : State) : exec .crcBuf s = completion (crcBufBody s) := rfl

theorem exec_lrcInit (s : State) : exec .lrcInit s = completion (.ok { s with lrcSum := 0 }) := rfl

theorem exec_lrcBuf (s : State) : exec .lrcBuf s = completion (lrcBufBody s) := rfl

/-- An empty sum has complement 0: `256 - 0` wraps (R118). -/
theorem lrcOfSum_zero : lrcOfSum 0 = 0 := by decide

/-- Adding bytes one after the other to a sum, as a number modulo 256. -/
theorem foldl_add_eq_ofNat (bs : List Byte) (sum : Byte) :
    bs.foldl (· + ·) sum = BitVec.ofNat 8 (sum.toNat + (bs.map BitVec.toNat).sum) := by
  induction bs generalizing sum with
  | nil => simp
  | cons b bs ih =>
    apply BitVec.eq_of_toNat_eq
    rw [List.foldl_cons, ih]
    simp [Nat.add_assoc]

/-- `lrc_sum` as a number modulo 256 (R107). -/
theorem lrcSum_eq_ofNat (bs : List Byte) : lrcSum bs = BitVec.ofNat 8 (bs.map BitVec.toNat).sum := by
  simpa [lrcSum] using foldl_add_eq_ofNat bs 0

/-- A running sum plus the byte sum of a string, as a number modulo 256 (R117). -/
theorem add_lrcSum_eq_ofNat (sum : Byte) (bs : List Byte) :
    sum + lrcSum bs = BitVec.ofNat 8 (sum.toNat + (bs.map BitVec.toNat).sum) := by
  rw [BitVec.ofNat_add, BitVec.ofNat_toNat, BitVec.setWidth_eq, lrcSum_eq_ofNat]

/-- Settles O15, by whether the input fits in the buffer. -/
theorem crcBufFeedsTheInput : Obligations.CrcBufFeedsTheInput := by
  intro s
  constructor
  · intro hfits
    rw [exec_crcBuf, crcBufBody_ok s hfits, completion_ok, State.inputBytes_eq]
  · intro htoolong
    rw [exec_crcBuf, crcBufBody_inlen s htoolong, completion_raiseErr]

/-- Settles O16, by whether the input fits in the buffer. -/
theorem lrcBufAddsTheInput : Obligations.LrcBufAddsTheInput := by
  intro s
  constructor
  · intro hfits
    rw [exec_lrcBuf, lrcBufBody_ok s hfits, completion_ok, add_lrcSum_eq_ofNat, State.inputBytes_eq]
  · intro htoolong
    rw [exec_lrcBuf, lrcBufBody_inlen s htoolong, completion_raiseErr]

/-- Settles O14: LRC_VAL is a view of the cleared sum. -/
theorem initCommandsSetTheirAccumulator : Obligations.InitCommandsSetTheirAccumulator := by
  intro s
  have hlrc := (exec_lrcInit s).trans (completion_ok _)
  refine ⟨(exec_crcInit s).trans (completion_ok _), hlrc, fun t ht => ?_⟩
  injection hlrc.symm.trans ht with ht
  rw [← ht]
  exact lrcOfSum_zero

end Sys2Proof.Machine
end

section
/-! Host writes to the read-write registers while no command runs (10_state.md R32, R34, R35; 40_bytes_and_checksum.md
R110, R111; 44_control.md R208). -/

namespace Sys2Proof.Machine

/-- The step of a host write to a register while no command runs is that register's write action. -/
theorem step_wr_reg_idle (s : State) (r : Reg) (v : Word) (ts : List Turn)
    (hturn : s.nextLine (.wr (regOffset r) v) ts) (hin : s.resetIn = false) (hb : s.busy = false) :
    step s = .next (State.writeReg { s with turns := ts, reply := none } r v) :=
  step_wr_idle s (regOffset r) v ts (.reg r) hturn hin hb (regOffset_lt r) (accessTarget_reg _ r)

/-- A write to CTRL without the soft reset bit (44_control.md R208). -/
theorem writeReg_ctrl (s : State) (v : Word) (h : v.getLsbD 0 = false) : s.writeReg .ctrl v = s.setCtrl v :=
  if_neg (Bool.eq_false_iff.1 h)

/-- Settles O48, register by register. -/
theorem registerWritesSetTheirField : Obligations.RegisterWritesSetTheirField := by
  intro s ts v hb hin
  refine ⟨fun hturn => ?inLen, fun hturn => ?unit, fun hturn => ?tid, fun hturn => ?crcAcc, fun hturn => ?lrcSum,
    fun hturn hsrst => ?ctrl⟩
  case inLen => exact step_wr_reg_idle s .inLen v ts hturn hin hb
  case unit => exact step_wr_reg_idle s .unit v ts hturn hin hb
  case tid => exact step_wr_reg_idle s .tid v ts hturn hin hb
  case crcAcc => exact step_wr_reg_idle s .crcAcc v ts hturn hin hb
  case lrcSum => exact step_wr_reg_idle s .lrcSum v ts hturn hin hb
  case ctrl =>
    rw [step_wr_reg_idle s .ctrl v ts hturn hin hb, writeReg_ctrl _ v hsrst]
    rfl

end Sys2Proof.Machine
end

section
/-! The RTU family: what each command's completion is, and the round trip (41_rtu_framer.md R130 to R134). -/

namespace Sys2Proof.Machine

theorem exec_rtuBuild (s : State) : exec .rtuBuild s = completion (rtuBuildBody s) := rfl

theorem exec_rtuParse (s : State) : exec .rtuParse s = completion (rtuParseBody s) := rfl

/-- Two bytes as a 16-bit field, in numbers (00_scope.md R14). -/
theorem half_eq_ofNat (hi lo : Byte) : half hi lo = BitVec.ofNat 16 (lo.toNat + 256 * hi.toNat) := by
  apply BitVec.eq_of_toNat_eq
  rw [half, toNat_append_byte, BitVec.toNat_ofNat]
  omega

theorem rtuFrame_eq (u : Byte) (p : List Byte) :
    rtuFrame u p = (u :: p) ++ [(crc16 (u :: p)).extractLsb' 0 8, (crc16 (u :: p)).extractLsb' 8 8] := rfl

/-- The completion of RTU_BUILD when the frame fits (R131). -/
theorem exec_rtuBuild_ok (s : State) (hfits : s.inLen.toNat + 3 ≤ s.bufSize) :
    exec .rtuBuild s = .next { s.putOutput (rtuFrame s.unit s.inputBytes) with
      chkCalc := crc16 (s.unit :: s.inputBytes), err := .none, det := .none, busy := false, done := true } := by
  rw [exec_rtuBuild, rtuBuildBody_ok s hfits, completion_ok, State.inputBytes_eq]

/-- Settles O25, by whether the input and the frame fit in the buffer. -/
theorem rtuBuildWritesTheFrame : Obligations.RtuBuildWritesTheFrame := by
  intro s
  refine ⟨fun hfits => ?built, fun htoolong => ?inlen, fun hin hout => ?outlen⟩
  case built =>
    have hlen : (rtuFrame s.unit s.inputBytes).length = s.inLen.toNat + 3 := by simp
    refine ⟨_, exec_rtuBuild_ok s hfits, ?_, ?_⟩
    · exact outputIs_congr s (s.putOutput (rtuFrame s.unit s.inputBytes)) _ _ rfl rfl (outputIs_putOutput s _)
    · rw [← hlen]
      rfl
  case inlen => rw [exec_rtuBuild, rtuBuildBody_inlen s htoolong, completion_raiseErr]
  case outlen => rw [exec_rtuBuild, rtuBuildBody_outlen s hin hout, completion_raiseErr]

/-- The check of RTU_PARSE in terms of the input bytes: R132's `c` and `rx` decide. -/
theorem rtuCheck_eq (s : State) (c rx : Half) (hc : c = crc16 (s.inputBytes.take (s.inLen.toNat - 2)))
    (hrx : rx = half (s.ibufAt (s.inLen.toNat - 1)) (s.ibufAt (s.inLen.toNat - 2))) :
    rtuCheck s s.inCount =
      if c = rx then
        .ok { s.putOutput ((s.inputBytes.take (s.inLen.toNat - 2)).drop 1) with
          chkCalc := c, chkRx := rx, rxUnit := s.ibufAt 0 }
      else raiseErr { s with chkCalc := c, chkRx := rx } .checksum .crc := by
  subst hc hrx
  rw [rtuCheck, State.inCount_eq, State.ibufSlice_eq s 0 _ (Nat.sub_le _ _), State.ibufSlice_eq s 1 _ (Nat.sub_le _ _),
    List.drop_zero]

/-- The completion of RTU_PARSE on an input that is long enough but whose checksum does not match (R132). -/
theorem exec_rtuParse_crc (s : State) (c rx : Half) (hc : c = crc16 (s.inputBytes.take (s.inLen.toNat - 2)))
    (hrx : rx = half (s.ibufAt (s.inLen.toNat - 1)) (s.ibufAt (s.inLen.toNat - 2)))
    (hfits : s.inLen.toNat ≤ s.bufSize) (hlong : 5 ≤ s.inLen.toNat) (hne : c ≠ rx) :
    exec .rtuParse s = .next { failedWith s .checksum .crc with chkCalc := c, chkRx := rx } := by
  rw [exec_rtuParse, rtuParseBody_check s hfits hlong, rtuCheck_eq s c rx hc hrx, if_neg hne, completion_raiseErr]
  rfl

/-- The completion of RTU_PARSE on an input whose checksum matches (R132). -/
theorem exec_rtuParse_ok (s : State) (c rx : Half) (hc : c = crc16 (s.inputBytes.take (s.inLen.toNat - 2)))
    (hrx : rx = half (s.ibufAt (s.inLen.toNat - 1)) (s.ibufAt (s.inLen.toNat - 2)))
    (hfits : s.inLen.toNat ≤ s.bufSize) (hlong : 5 ≤ s.inLen.toNat) (heq : c = rx) :
    exec .rtuParse s = .next { s.putOutput ((s.inputBytes.take (s.inLen.toNat - 2)).drop 1) with
      chkCalc := c, chkRx := rx, rxUnit := s.ibufAt 0,
      err := .none, det := .none, busy := false, done := true } := by
  rw [exec_rtuParse, rtuParseBody_check s hfits hlong, rtuCheck_eq s c rx hc hrx, if_pos heq, completion_ok]

/-- Settles O26, check by check in the order of R132. -/
theorem rtuParseChecksAndExtracts : Obligations.RtuParseChecksAndExtracts := by
  rintro s n c rx rfl hc hrx
  rw [← half_eq_ofNat] at hrx
  refine ⟨fun htoolong => ?inlen, fun hfits hshort => ?short, exec_rtuParse_crc s c rx hc hrx,
    fun hfits hlong heq => ?ok⟩
  case inlen => rw [exec_rtuParse, rtuParseBody_inlen s htoolong, completion_raiseErr]
  case short => rw [exec_rtuParse, rtuParseBody_short s hfits hshort, completion_raiseErr]
  case ok =>
    have hlen : ((s.inputBytes.take (s.inLen.toNat - 2)).drop 1).length = s.inLen.toNat - 3 := by
      rw [List.length_drop, List.length_take, State.length_inputBytes]
      omega
    refine ⟨_, exec_rtuParse_ok s c rx hc hrx hfits hlong heq, ?_, ?_⟩
    · exact outputIs_congr s (s.putOutput _) _ _ rfl rfl (outputIs_putOutput s _)
    · rw [← hlen]
      rfl

/-- An input known byte by byte. -/
theorem State.inputBytes_eq_of_ibufAt (s : State) (bs : List Byte) (hlen : s.inLen.toNat = bs.length)
    (hbytes : ∀ i, (hi : i < bs.length) → s.ibufAt i = bs[i]) : s.inputBytes = bs := by
  apply List.ext_getElem (by simpa using hlen)
  intro i h1 h2
  rw [State.getElem_inputBytes, hbytes i h2]

theorem State.ibufAt_of_inputBytes (s : State) (bs : List Byte) (h : s.inputBytes = bs) (i : Nat) (hi : i < bs.length) :
    s.ibufAt i = bs[i] := by
  subst h
  exact (State.getElem_inputBytes s i hi).symm

/-- RTU_PARSE of a frame `rtu(u, p)` takes it apart again, whatever state holds the frame (R134). -/
theorem exec_rtuParse_rtuFrame (r : State) (u : Byte) (p : List Byte) (hin : r.inputBytes = rtuFrame u p)
    (hlong : 2 ≤ p.length) (hfits : p.length + 3 ≤ r.bufSize) :
    exec .rtuParse r = .next { r.putOutput p with
      chkCalc := crc16 (u :: p), chkRx := crc16 (u :: p), rxUnit := u,
      err := .none, det := .none, busy := false, done := true } := by
  have hlen : r.inLen.toNat = p.length + 3 := by rw [← State.length_inputBytes, hin, length_rtuFrame]
  have hbody : r.inputBytes.take (r.inLen.toNat - 2) = u :: p := by
    rw [hin, hlen, rtuFrame_eq]
    exact List.take_left' rfl
  have hunit : r.ibufAt 0 = u := State.ibufAt_of_inputBytes r _ hin 0 (by simp)
  have hlo : r.ibufAt (r.inLen.toNat - 2) = (crc16 (u :: p)).extractLsb' 0 8 := by
    rw [hlen, State.ibufAt_of_inputBytes r _ hin _ (by simp)]
    simp [rtuFrame_eq]
  have hhi : r.ibufAt (r.inLen.toNat - 1) = (crc16 (u :: p)).extractLsb' 8 8 := by
    rw [hlen, State.ibufAt_of_inputBytes r _ hin _ (by simp)]
    simp [rtuFrame_eq]
  have hrx : crc16 (u :: p) = half (r.ibufAt (r.inLen.toNat - 1)) (r.ibufAt (r.inLen.toNat - 2)) := by
    rw [hlo, hhi, half_be16]
  rw [exec_rtuParse_ok r _ _ (by rw [hbody]) hrx (by omega) (by omega) rfl, hbody, hunit]
  rfl

/-- The output length register holds the length of the frame that RTU_BUILD writes (R131). -/
theorem toNat_outLen_rtuFrame (s : State) (hfits : s.inLen.toNat + 3 ≤ s.bufSize) :
    (s.putOutput (rtuFrame s.unit s.inputBytes)).outLen.toNat = (rtuFrame s.unit s.inputBytes).length := by
  have hlen : (rtuFrame s.unit s.inputBytes).length = s.inLen.toNat + 3 := by simp
  have hlt := s.bufSize_lt
  rw [State.putOutput_outLen, BitVec.toNat_ofNat, Nat.mod_eq_of_lt (by omega)]

/-- Settles O27: the state that is parsed holds the frame that RTU_BUILD wrote, so the parse takes it apart again. -/
theorem rtuRoundTrip : Obligations.RtuRoundTrip := by
  intro s hlong hfits
  refine ⟨_, exec_rtuBuild_ok s hfits, fun r hparam hlen hbytes => ?_⟩
  have hcount := toNat_outLen_rtuFrame s hfits
  obtain ⟨hframe, -⟩ := outputIs_putOutput s (rtuFrame s.unit s.inputBytes)
  have hin : r.inputBytes = rtuFrame s.unit s.inputBytes :=
    State.inputBytes_eq_of_ibufAt r _ (by rw [hlen]; exact hcount)
      fun i hi => (hbytes i (hcount.symm ▸ hi)).trans (hframe i hi)
  have hparse := exec_rtuParse_rtuFrame r s.unit s.inputBytes hin (by simpa using hlong)
    (by rw [show r.bufSize = s.bufSize from congrArg BitVec.toNat hparam]; simpa using hfits)
  obtain ⟨hpdu, -⟩ := outputIs_putOutput r s.inputBytes
  refine ⟨_, hparse, rfl, rfl, ?outLen, fun i hi => ?pdu, rfl⟩
  case outLen => simp
  case pdu =>
    have hi' : i < s.inputBytes.length := by simpa using hi
    exact (hpdu i hi').trans (State.getElem_inputBytes s i hi')

end Sys2Proof.Machine
end

section
/-! Hexadecimal text (40_bytes_and_checksum.md R100 to R103): the digits of `hex_enc` in numbers, and what `hex_dec`
answers. -/

namespace Sys2Proof.Machine

theorem toNat_hexChar : ∀ n : BitVec 4, (hexChar n).toNat = hexCode n.toNat := by decide

theorem toNat_highNibble (b : Byte) : (b.extractLsb' 4 4).toNat = b.toNat / 16 := by
  have hlt := b.isLt
  rw [BitVec.extractLsb'_toNat, Nat.shiftRight_eq_div_pow]
  omega

theorem toNat_lowNibble (b : Byte) : (b.extractLsb' 0 4).toNat = b.toNat % 16 := by
  rw [BitVec.extractLsb'_toNat, Nat.shiftRight_zero]

/-- A byte is its high nibble followed by its low one. -/
theorem highNibble_append_lowNibble (b : Byte) : b.extractLsb' 4 4 ++ b.extractLsb' 0 4 = b := by
  apply BitVec.eq_of_toNat_eq
  rw [BitVec.toNat_append, ← Nat.shiftLeft_add_eq_or_of_lt (b.extractLsb' 0 4).isLt, Nat.shiftLeft_eq,
    toNat_highNibble, toNat_lowNibble]
  omega

/-- The two characters of byte `j` of a hexadecimal text, in numbers (R100, R101). -/
theorem toNat_getD_hexEnc (d : List Byte) (j : Nat) (hj : j < d.length) :
    ((hexEnc d).getD (2 * j) 0).toNat = hexCode ((d.getD j 0).toNat / 16) ∧
      ((hexEnc d).getD (2 * j + 1) 0).toNat = hexCode ((d.getD j 0).toNat % 16) := by
  induction d generalizing j with
  | nil => exact absurd hj (Nat.not_lt_zero j)
  | cons b d ih =>
    rw [hexEnc_cons]
    cases j with
    | zero =>
      rw [← toNat_highNibble, ← toNat_lowNibble]
      exact ⟨toNat_hexChar _, toNat_hexChar _⟩
    | succ j => exact ih j (Nat.lt_of_succ_lt_succ hj)

/-- The spec's inference in R103 on whole pairs of digits. -/
theorem hexPairs_hexEnc (d : List Byte) : hexPairs (hexEnc d) = some d := by
  induction d with
  | nil => rfl
  | cons b d ih => simp only [hexEnc_cons, hexPairs, hexVal_hexChar, ih, highNibble_append_lowNibble]

theorem hexDec_hexEnc (d : List Byte) : hexDec (hexEnc d) = .ok d := by
  have heven : (hexEnc d).length % 2 ≠ 1 := by rw [length_hexEnc]; omega
  rw [hexDec, if_neg heven, hexPairs_hexEnc]

/-- One character that is no digit spoils the text, in whichever half of a pair it stands. -/
theorem hexPairs_eq_none_of_mem (c : Byte) (hc : hexVal c = none) :
    (t : List Byte) → c ∈ t → hexPairs t = none
  | [], hmem => absurd hmem List.not_mem_nil
  | [_], _ => rfl
  | h :: l :: t, hmem => by
    rcases List.mem_cons.1 hmem with rfl | hmem
    · simp only [hexPairs, hc]
    · rcases List.mem_cons.1 hmem with rfl | hmem
      · simp only [hexPairs, hc]
        cases hexVal h <;> rfl
      · simp only [hexPairs, hexPairs_eq_none_of_mem c hc t hmem]
        cases hexVal h <;> cases hexVal l <;> rfl

theorem hexDec_of_odd (t : List Byte) (hodd : t.length % 2 = 1) : hexDec t = .error .odd := if_pos hodd

theorem hexDec_of_nonhex (t : List Byte) (heven : t.length % 2 = 0) (c : Byte) (hmem : c ∈ t) (hc : hexVal c = none) :
    hexDec t = .error .nonhex := by
  rw [hexDec, if_neg (by omega), hexPairs_eq_none_of_mem c hc t hmem]

end Sys2Proof.Machine
end

section
/-! What a state holds whose input is the output of another, as in a round trip (41_rtu_framer.md R134, 42_ascii_framer.md
R155). -/

namespace Sys2Proof.Machine

/-- OUT_LEN counts an output that fits in the buffer (10_state.md R33). -/
theorem State.toNat_putOutput_outLen (s : State) (out : List Byte) (hfits : out.length ≤ s.bufSize) :
    (s.putOutput out).outLen.toNat = out.length := by
  have hlt := s.bufSize_lt
  rw [State.putOutput_outLen, BitVec.toNat_ofNat, Nat.mod_eq_of_lt (by omega)]

theorem State.inputBytes_eq_of_output (s r : State) (out : List Byte) (hfits : out.length ≤ s.bufSize)
    (hlen : r.inLen = (s.putOutput out).outLen)
    (hbytes : ∀ i < (s.putOutput out).outLen.toNat, r.ibufAt i = (s.putOutput out).obufAt i) : r.inputBytes = out := by
  have hcount := s.toNat_putOutput_outLen out hfits
  obtain ⟨hout, -⟩ := outputIs_putOutput s out
  exact State.inputBytes_eq_of_ibufAt r out (by rw [hlen, hcount])
    fun i hi => (hbytes i (by rwa [hcount])).trans (hout i hi)

/-- OBUF after an output of the input bytes of another state. -/
theorem State.obufAt_putOutput_inputBytes (r s : State) (i : Nat) (hi : i < s.inLen.toNat) :
    (r.putOutput s.inputBytes).obufAt i = s.ibufAt i := by
  obtain ⟨hout, -⟩ := outputIs_putOutput r s.inputBytes
  have hi' : i < s.inputBytes.length := by rwa [State.length_inputBytes]
  exact (hout i hi').trans (State.getElem_inputBytes s i hi')

end Sys2Proof.Machine
end

section
/-! The ASCII family: what each command's completion is, and the round trip (42_ascii_framer.md R150 to R155). -/

namespace Sys2Proof.Machine

theorem exec_ascBuild (s : State) : exec .ascBuild s = completion (ascBuildBody s) := rfl

theorem exec_ascParse (s : State) : exec .ascParse s = completion (ascParseBody s) := rfl

/-- The completion of ASC_BUILD when the frame fits (R151). -/
theorem exec_ascBuild_ok (s : State) (hfits : 2 * s.inLen.toNat + 7 ≤ s.bufSize) :
    exec .ascBuild s = .next { s.putOutput (ascFrame s.unit s.inputBytes) with
      chkCalc := (lrc (s.unit :: s.inputBytes)).setWidth 16,
      err := .none, det := .none, busy := false, done := true } := by
  rw [exec_ascBuild, ascBuildBody_ok s hfits, completion_ok, State.inputBytes_eq]

/-- Settles O28: the text digit by digit, then the command by whether the input and the frame fit in the buffer. -/
theorem ascBuildWritesTheFrame : Obligations.AscBuildWritesTheFrame := by
  refine ⟨fun d => ⟨length_hexEnc d, toNat_getD_hexEnc d⟩, fun s => ⟨fun hfits => ?built, fun htoolong => ?inlen,
    fun hin hout => ?outlen⟩⟩
  case built =>
    have hlen : (ascFrame s.unit s.inputBytes).length = 2 * s.inLen.toNat + 7 := by simp
    refine ⟨_, exec_ascBuild_ok s hfits, ?_, ?_⟩
    · exact outputIs_congr s (s.putOutput (ascFrame s.unit s.inputBytes)) _ _ rfl rfl (outputIs_putOutput s _)
    · rw [← hlen, BitVec.ofNat_toNat]
      rfl
  case inlen => rw [exec_ascBuild, ascBuildBody_inlen s htoolong, completion_raiseErr]
  case outlen => rw [exec_ascBuild, ascBuildBody_outlen s hin hout, completion_raiseErr]

/-- The input of ASC_PARSE passes the checks of R152 on its length and its marks; its hex text lies between the marks. -/
structure State.AscMarked (s : State) : Prop where
  fits : s.inLen.toNat ≤ s.bufSize
  long : 7 ≤ s.inLen.toNat
  start : s.ibufAt 0 = markStart
  cr : s.ibufAt (s.inLen.toNat - 2) = markCr
  lf : s.ibufAt (s.inLen.toNat - 1) = markLf

/-- The hex text of an ASCII frame, between its marks (R152). -/
def State.ascText (s : State) : List Byte := (s.inputBytes.take (s.inLen.toNat - 2)).drop 1

theorem State.length_ascText (s : State) : s.ascText.length = s.inLen.toNat - 3 := by
  rw [State.ascText, List.length_drop, List.length_take, State.length_inputBytes]
  omega

theorem State.ascText_eq_ibufSlice (s : State) : s.ascText = s.ibufSlice 1 (s.inCount - 2) :=
  (s.ibufSlice_eq 1 _ (Nat.sub_le _ _)).symm

theorem State.ibufAt_mem_ascText (s : State) (i : Nat) (hi : i < s.inLen.toNat - 3) : s.ibufAt (1 + i) ∈ s.ascText := by
  rw [State.ascText_eq_ibufSlice]
  have hlen : i < (s.ibufSlice 1 (s.inCount - 2)).length := by rwa [← State.ascText_eq_ibufSlice, s.length_ascText]
  exact State.getElem_ibufSlice s _ _ i hlen ▸ List.getElem_mem hlen

/-- ASC_PARSE of a marked input whose text does not decode (R152). -/
theorem exec_ascParse_hexError (s : State) (hmarked : s.AscMarked) (e : HexError) (htext : hexDec s.ascText = .error e) :
    exec .ascParse s = .next (failedWith s .framing (hexErrorDet e)) := by
  rw [State.ascText_eq_ibufSlice] at htext
  rw [exec_ascParse, ascParseBody_decode s hmarked.fits hmarked.long hmarked.start hmarked.cr hmarked.lf, htext]
  exact completion_raiseErr s _ _

/-- ASC_PARSE of a marked input goes on to the LRC check of the decoded text (R152). -/
theorem exec_ascParse_decoded (s : State) (hmarked : s.AscMarked) (d : List Byte) (htext : hexDec s.ascText = .ok d) :
    exec .ascParse s = completion (ascCheck s d) := by
  rw [State.ascText_eq_ibufSlice] at htext
  rw [exec_ascParse, ascParseBody_decode s hmarked.fits hmarked.long hmarked.start hmarked.cr hmarked.lf, htext]

/-- Settles O29, check by check in the order of R152. -/
theorem ascParseRejectsBadFrames : Obligations.AscParseRejectsBadFrames := by
  rintro s n rfl
  refine ⟨fun htoolong => ?inlen, fun hfits hshort => ?short, fun hfits hlong hstart => ?start,
    fun hfits hlong hstart hend => ?endMark, fun hfits hlong hstart hcr hlf hodd => ?odd,
    fun hfits hlong hstart hcr hlf heven hnonhex => ?nonhex⟩
  case inlen => rw [exec_ascParse, ascParseBody_inlen s htoolong, completion_raiseErr]
  case short => rw [exec_ascParse, ascParseBody_short s hfits hshort, completion_raiseErr]
  case start => rw [exec_ascParse, ascParseBody_start s hfits hlong hstart, completion_raiseErr]
  case endMark => rw [exec_ascParse, ascParseBody_endMark s hfits hlong hstart hend, completion_raiseErr]
  case odd =>
    exact exec_ascParse_hexError s ⟨hfits, hlong, hstart, hcr, hlf⟩ .odd
      (hexDec_of_odd _ (by rwa [State.length_ascText]))
  case nonhex =>
    obtain ⟨i, hi, hnone⟩ := hnonhex
    exact exec_ascParse_hexError s ⟨hfits, hlong, hstart, hcr, hlf⟩ .nonhex
      (hexDec_of_nonhex _ (by rwa [State.length_ascText]) _ (s.ibufAt_mem_ascText i hi) hnone)

/-- The check of ASC_PARSE with the bytes it uses named: R152's `c` and `rx` decide. -/
theorem ascCheck_eq (s : State) (d : List Byte) (u c rx : Byte) (hu : d[0]? = some u)
    (hc : c = lrc (d.take (d.length - 1))) (hrx : d[d.length - 1]? = some rx) :
    ascCheck s d =
      if c = rx then
        .ok { s.putOutput ((d.take (d.length - 1)).drop 1) with
          chkCalc := c.setWidth 16, chkRx := rx.setWidth 16, rxUnit := u }
      else raiseErr { s with chkCalc := c.setWidth 16, chkRx := rx.setWidth 16 } .checksum .lrc := by
  subst hc
  simp only [ascCheck, slice, List.getD_eq_getElem?_getD, hu, hrx, Option.getD_some, List.drop_zero, Nat.sub_zero,
    List.drop_take]

/-- ASC_PARSE of a marked text whose LRC does not match (R152). -/
theorem exec_ascParse_lrc (s : State) (hmarked : s.AscMarked) (d : List Byte) (htext : hexDec s.ascText = .ok d)
    (u c rx : Byte) (hu : d[0]? = some u) (hc : c = lrc (d.take (d.length - 1))) (hrx : d[d.length - 1]? = some rx)
    (hne : c ≠ rx) :
    exec .ascParse s =
      .next { failedWith s .checksum .lrc with chkCalc := c.setWidth 16, chkRx := rx.setWidth 16 } := by
  rw [exec_ascParse_decoded s hmarked d htext, ascCheck_eq s d u c rx hu hc hrx, if_neg hne, completion_raiseErr]
  rfl

/-- ASC_PARSE of a marked text whose LRC matches (R152). -/
theorem exec_ascParse_ok (s : State) (hmarked : s.AscMarked) (d : List Byte) (htext : hexDec s.ascText = .ok d)
    (u c rx : Byte) (hu : d[0]? = some u) (hc : c = lrc (d.take (d.length - 1))) (hrx : d[d.length - 1]? = some rx)
    (heq : c = rx) :
    exec .ascParse s = .next { s.putOutput ((d.take (d.length - 1)).drop 1) with
      chkCalc := c.setWidth 16, chkRx := rx.setWidth 16, rxUnit := u,
      err := .none, det := .none, busy := false, done := true } := by
  rw [exec_ascParse_decoded s hmarked d htext, ascCheck_eq s d u c rx hu hc hrx, if_pos heq, completion_ok]

/-- Settles O30, by the comparison that ends R152. -/
theorem ascParseChecksAndExtracts : Obligations.AscParseChecksAndExtracts := by
  rintro s n m d c rx rfl hfits hlong hstart hcr hlf htext rfl hc hrx
  have hmarked : s.AscMarked := ⟨hfits, hlong, hstart, hcr, hlf⟩
  obtain ⟨hlast, -⟩ := List.getElem?_eq_some_iff.1 hrx
  obtain ⟨u, hu⟩ : ∃ u, d[0]? = some u := ⟨d[0], List.getElem?_eq_getElem (by omega)⟩
  rw [BitVec.ofNat_toNat, BitVec.ofNat_toNat]
  refine ⟨exec_ascParse_lrc s hmarked d htext u c rx hu hc hrx, fun heq => ?ok⟩
  case ok =>
    have hlen : ((d.take (d.length - 1)).drop 1).length = d.length - 2 := by
      rw [List.length_drop, List.length_take]
      omega
    refine ⟨_, u, exec_ascParse_ok s hmarked d htext u c rx hu hc hrx heq, hu, ?_, ?_⟩
    · exact outputIs_congr s (s.putOutput _) _ _ rfl rfl (outputIs_putOutput s _)
    · rw [← hlen]
      rfl

/-- An input that is a whole ASCII frame carries the marks, and its text is the frame's (R150). -/
theorem ascMarked_of_ascFrame (r : State) (u : Byte) (p : List Byte) (hin : r.inputBytes = ascFrame u p)
    (hfits : 2 * p.length + 7 ≤ r.bufSize) :
    r.AscMarked ∧ r.ascText = hexEnc ((u :: p) ++ [lrc (u :: p)]) := by
  have hlen : r.inLen.toNat = 2 * p.length + 7 := by rw [← State.length_inputBytes, hin, length_ascFrame]
  have hbyte := State.ibufAt_of_inputBytes r _ hin
  have hcr : r.ibufAt (2 * p.length + 5) = markCr := by
    rw [hbyte _ (by simp)]
    simp [ascFrame, Nat.mul_add]
  have hlf : r.ibufAt (2 * p.length + 6) = markLf := by
    rw [hbyte _ (by simp)]
    simp [ascFrame, Nat.mul_add]
  refine ⟨⟨by omega, by omega, hbyte 0 (by simp), ?cr, ?lf⟩, ?text⟩
  case cr => rw [hlen]; exact hcr
  case lf => rw [hlen]; exact hlf
  case text =>
    rw [State.ascText, hin, hlen, ascFrame, List.take_left' (by simp; omega)]
    rfl

/-- ASC_PARSE of a frame `asc(u, p)` takes it apart again, whatever state holds the frame (R155). -/
theorem exec_ascParse_ascFrame (r : State) (u : Byte) (p : List Byte) (hin : r.inputBytes = ascFrame u p)
    (hfits : 2 * p.length + 7 ≤ r.bufSize) :
    exec .ascParse r = .next { r.putOutput p with
      chkCalc := (lrc (u :: p)).setWidth 16, chkRx := (lrc (u :: p)).setWidth 16, rxUnit := u,
      err := .none, det := .none, busy := false, done := true } := by
  obtain ⟨hmarked, htext⟩ := ascMarked_of_ascFrame r u p hin hfits
  have hbody : ((u :: p) ++ [lrc (u :: p)]).take (((u :: p) ++ [lrc (u :: p)]).length - 1) = u :: p := by simp
  rw [exec_ascParse_ok r hmarked _ (htext ▸ hexDec_hexEnc _) u (lrc (u :: p)) (lrc (u :: p)) rfl (by rw [hbody])
    (by simp) rfl, hbody]
  rfl

/-- Settles O31: the state that is parsed holds the frame that ASC_BUILD wrote, so the parse takes it apart again. -/
theorem ascRoundTrip : Obligations.AscRoundTrip := by
  intro s hfits
  refine ⟨_, exec_ascBuild_ok s hfits, fun r hparam hlen hbytes => ?_⟩
  have hin : r.inputBytes = ascFrame s.unit s.inputBytes :=
    State.inputBytes_eq_of_output s r _ (by simpa using hfits) hlen hbytes
  have hparse := exec_ascParse_ascFrame r s.unit s.inputBytes hin
    (by rw [show r.bufSize = s.bufSize from congrArg BitVec.toNat hparam]; simpa using hfits)
  refine ⟨_, hparse, rfl, rfl, ?outLen, State.obufAt_putOutput_inputBytes r s, rfl, ?lrc⟩
  case outLen => simp
  case lrc => exact BitVec.toNat_setWidth_of_le (by decide)

end Sys2Proof.Machine
end

section
/-! The length-prefixed family: what each command's completion is, the round trip, and what becomes of TID
(43_lenprefix_framer.md R180 to R186). -/

namespace Sys2Proof.Machine

theorem exec_lpfBuild (s : State) : exec .lpfBuild s = completion (lpfBuildBody s) := rfl

theorem exec_lpfParse (s : State) : exec .lpfParse s = completion (lpfParseBody s) := rfl

/-- The two bytes of a 16-bit field in numbers (00_scope.md R14). -/
theorem be16_eq_ofNat (v : Half) : be16 v = [BitVec.ofNat 8 (v.toNat / 256), BitVec.ofNat 8 v.toNat] := by
  simp [be16, BitVec.extractLsb', Nat.shiftRight_eq_div_pow]

/-- The frame in numbers, when its length field does not wrap (R180). -/
theorem lpfFrame_eq_ofNat (x : Half) (u : Byte) (p : List Byte) (hlen : p.length + 1 < 65536) :
    lpfFrame x u p = [BitVec.ofNat 8 (x.toNat / 256), BitVec.ofNat 8 x.toNat, 0x00, 0x00,
      BitVec.ofNat 8 ((p.length + 1) / 256), BitVec.ofNat 8 (p.length + 1), u] ++ p := by
  rw [lpfFrame, be16_eq_ofNat, be16_eq_ofNat, BitVec.toNat_ofNat, Nat.mod_eq_of_lt hlen]
  rfl

/-- A field of IBUF in numbers, high byte first (00_scope.md R14). -/
theorem State.ibufHalf_eq_ofNat (s : State) (i : Nat) :
    s.ibufHalf i = BitVec.ofNat 16 ((s.ibufAt i).toNat * 256 + (s.ibufAt (i + 1)).toNat) := by
  rw [State.ibufHalf, half_eq_ofNat, Nat.add_comm, Nat.mul_comm]

theorem State.toNat_ibufHalf (s : State) (i : Nat) :
    (s.ibufHalf i).toNat = (s.ibufAt i).toNat * 256 + (s.ibufAt (i + 1)).toNat := by
  have hhi := (s.ibufAt i).isLt
  have hlo := (s.ibufAt (i + 1)).isLt
  rw [State.ibufHalf_eq_ofNat, BitVec.toNat_ofNat, Nat.mod_eq_of_lt (by omega)]

/-- The increment of TID in numbers (R184). -/
theorem State.nextTid_eq_ofNat (s : State) :
    s.nextTid = if s.tidinc then BitVec.ofNat 16 ((s.tid.toNat + 1) % 65536) else s.tid := by
  have hinc : s.tid + 1 = BitVec.ofNat 16 ((s.tid.toNat + 1) % 65536) := BitVec.eq_of_toNat_eq (by simp)
  rw [State.nextTid, hinc]

/-- The completion of LPF_BUILD when the frame fits (R181). -/
theorem exec_lpfBuild_ok (s : State) (hfits : s.inLen.toNat + 7 ≤ s.bufSize) :
    exec .lpfBuild s = .next { s.putOutput (lpfFrame s.tid s.unit s.inputBytes) with
      tid := s.nextTid, err := .none, det := .none, busy := false, done := true } := by
  rw [exec_lpfBuild, lpfBuildBody_ok s hfits, completion_ok, State.inputBytes_eq]

/-- LPF_BUILD of an input that does not fit in IBUF (R181). -/
theorem exec_lpfBuild_inlen (s : State) (htoolong : s.bufSize < s.inLen.toNat) :
    exec .lpfBuild s = .next (failedWith s .range .inlen) := by
  rw [exec_lpfBuild, lpfBuildBody_inlen s htoolong, completion_raiseErr]

/-- LPF_BUILD of an input whose frame does not fit in OBUF (R181). -/
theorem exec_lpfBuild_outlen (s : State) (hin : s.inLen.toNat ≤ s.bufSize) (hout : s.bufSize < s.inLen.toNat + 7) :
    exec .lpfBuild s = .next (failedWith s .range .outlen) := by
  rw [exec_lpfBuild, lpfBuildBody_outlen s hin hout, completion_raiseErr]

/-- Settles O32, by whether the input and the frame fit in the buffer. -/
theorem lpfBuildWritesTheFrame : Obligations.LpfBuildWritesTheFrame := by
  intro s
  refine ⟨fun hfits => ?built, exec_lpfBuild_inlen s, exec_lpfBuild_outlen s⟩
  case built =>
    have hlt := s.bufSize_lt
    have hframe := lpfFrame_eq_ofNat s.tid s.unit s.inputBytes (by rw [State.length_inputBytes]; omega)
    have hlen : (lpfFrame s.tid s.unit s.inputBytes).length = s.inLen.toNat + 7 := by simp
    rw [State.length_inputBytes] at hframe
    refine ⟨_, exec_lpfBuild_ok s hfits, ?_, ?_⟩
    · rw [← hframe]
      exact outputIs_congr s (s.putOutput _) _ _ rfl rfl (outputIs_putOutput s _)
    · rw [← hlen, ← State.nextTid_eq_ofNat]
      rfl

/-- The completion of LPF_PARSE when the length field fits the input (R182). -/
theorem exec_lpfParse_ok (s : State) (hfits : s.inLen.toNat ≤ s.bufSize) (hlong : 8 ≤ s.inLen.toNat)
    (hfield : s.inLen.toNat = (s.ibufHalf 4).toNat + 6) :
    exec .lpfParse s = .next { s.putOutput (s.inputBytes.drop 7) with
      rxTid := s.ibufHalf 0, rxPid := s.ibufHalf 2, rxLen := s.ibufHalf 4, rxUnit := s.ibufAt 6,
      err := .none, det := .none, busy := false, done := true } := by
  have hend : 7 + ((s.ibufHalf 4).toNat - 1) = s.inLen.toNat := by omega
  rw [exec_lpfParse, lpfParseBody_ok s hfits hlong hfield, completion_ok, hend, State.ibufSlice_eq s 7 _ le_rfl,
    List.take_of_length_le (State.length_inputBytes s).le]

/-- LPF_PARSE of an input too short for a frame (R182). -/
theorem exec_lpfParse_short (s : State) (hfits : s.inLen.toNat ≤ s.bufSize) (hshort : s.inLen.toNat < 8) :
    exec .lpfParse s = .next (failedWith s .length .short) := by
  rw [exec_lpfParse, lpfParseBody_short s hfits hshort, completion_raiseErr]

/-- Settles O33, check by check in the order of R182. -/
theorem lpfParseChecksAndExtracts : Obligations.LpfParseChecksAndExtracts := by
  rintro s n len rfl hfield
  rw [← State.toNat_ibufHalf] at hfield
  subst hfield
  refine ⟨fun htoolong => ?inlen, exec_lpfParse_short s, fun hfits hlong hne => ?lenfield,
    fun hfits hlong heq => ?ok⟩
  case inlen => rw [exec_lpfParse, lpfParseBody_inlen s htoolong, completion_raiseErr]
  case lenfield => rw [exec_lpfParse, lpfParseBody_lenfield s hfits hlong hne, completion_raiseErr]
  case ok =>
    have hlen : (s.inputBytes.drop 7).length = (s.ibufHalf 4).toNat - 1 := by
      rw [List.length_drop, State.length_inputBytes]
      omega
    refine ⟨_, exec_lpfParse_ok s hfits hlong heq, ?_, ?_⟩
    · exact outputIs_congr s (s.putOutput _) _ _ rfl rfl (outputIs_putOutput s _)
    · rw [← hlen, ← State.ibufHalf_eq_ofNat, ← State.ibufHalf_eq_ofNat, BitVec.ofNat_toNat, BitVec.setWidth_eq]
      rfl

/-- A 16-bit field of an input known to hold its two bytes there. -/
theorem State.ibufHalf_of_be16 (s : State) (i : Nat) (v : Half) (hhi : s.ibufAt i = v.extractLsb' 8 8)
    (hlo : s.ibufAt (i + 1) = v.extractLsb' 0 8) : s.ibufHalf i = v := by
  rw [State.ibufHalf, hhi, hlo, half_be16]

/-- LPF_PARSE of a frame `lpf(x, u, p)` takes it apart again, whatever state holds the frame (R186). -/
theorem exec_lpfParse_lpfFrame (r : State) (x : Half) (u : Byte) (p : List Byte) (hin : r.inputBytes = lpfFrame x u p)
    (hlong : 1 ≤ p.length) (hfits : p.length + 7 ≤ r.bufSize) :
    exec .lpfParse r = .next { r.putOutput p with
      rxTid := x, rxPid := 0, rxLen := BitVec.ofNat 16 (p.length + 1), rxUnit := u,
      err := .none, det := .none, busy := false, done := true } := by
  have hlt := r.bufSize_lt
  have hlen : r.inLen.toNat = p.length + 7 := by rw [← State.length_inputBytes, hin, length_lpfFrame]
  have hbyte := State.ibufAt_of_inputBytes r _ hin
  have htid : r.ibufHalf 0 = x := r.ibufHalf_of_be16 0 x (hbyte 0 (by simp)) (hbyte 1 (by simp))
  have hpid : r.ibufHalf 2 = 0 := r.ibufHalf_of_be16 2 0 (hbyte 2 (by simp)) (hbyte 3 (by simp))
  have hfield : r.ibufHalf 4 = BitVec.ofNat 16 (p.length + 1) :=
    r.ibufHalf_of_be16 4 _ (hbyte 4 (by simp)) (hbyte 5 (by simp))
  have hunit : r.ibufAt 6 = u := hbyte 6 (by simp)
  have hcount : r.inLen.toNat = (r.ibufHalf 4).toNat + 6 := by
    rw [hlen, hfield, BitVec.toNat_ofNat, Nat.mod_eq_of_lt (by omega)]
  rw [exec_lpfParse_ok r (by omega) (by omega) hcount, hin, htid, hpid, hfield, hunit]
  rfl

/-- Settles O34: the state that is parsed holds the frame that LPF_BUILD wrote, so the parse takes it apart again; the
frame of an empty PDU has 7 bytes, one too few. -/
theorem lpfRoundTrip : Obligations.LpfRoundTrip := by
  intro s hfits
  refine ⟨_, exec_lpfBuild_ok s hfits, fun r hparam hlen hbytes => ?_⟩
  have hin : r.inputBytes = lpfFrame s.tid s.unit s.inputBytes :=
    State.inputBytes_eq_of_output s r _ (by simpa using hfits) hlen hbytes
  have hsize : r.bufSize = s.bufSize := congrArg BitVec.toNat hparam
  refine ⟨fun hlong => ?parsed, fun hempty => ?short⟩
  case parsed =>
    have hlt := s.bufSize_lt
    have hparse := exec_lpfParse_lpfFrame r s.tid s.unit s.inputBytes hin (by simpa using hlong)
      (by rw [hsize]; simpa using hfits)
    refine ⟨_, hparse, rfl, rfl, rfl, ?rxLen, rfl, ?outLen, State.obufAt_putOutput_inputBytes r s⟩
    case rxLen => rw [State.length_inputBytes, BitVec.toNat_ofNat, Nat.mod_eq_of_lt (by omega)]
    case outLen => simp
  case short =>
    have hcount : r.inLen.toNat = s.inLen.toNat + 7 := by
      rw [← State.length_inputBytes, hin, length_lpfFrame, State.length_inputBytes]
    exact exec_lpfParse_short r (by omega) (by omega)

/-- LPF_BUILD fails with a RANGE error, or the frame fits in the buffer (R181). -/
theorem exec_lpfBuild_fails_or_fits (s t : State) (h : exec .lpfBuild s = .next t) :
    (∃ d, t = failedWith s .range d) ∨ s.inLen.toNat + 7 ≤ s.bufSize := by
  by_cases hin : s.bufSize < s.inLen.toNat
  · rw [exec_lpfBuild_inlen s hin] at h
    injection h with h
    exact .inl ⟨_, h.symm⟩
  by_cases hout : s.bufSize < s.inLen.toNat + 7
  · rw [exec_lpfBuild_outlen s (by omega) hout] at h
    injection h with h
    exact .inl ⟨_, h.symm⟩
  · exact .inr (by omega)

/-- The header of the frame that LPF_BUILD writes starts with TID as it stands (R181, R184). -/
theorem exec_lpfBuild_header (s t : State) (h : exec .lpfBuild s = .next t) (hfits : s.inLen.toNat + 7 ≤ s.bufSize) :
    (t.obufAt 0).toNat = s.tid.toNat / 256 ∧ (t.obufAt 1).toNat = s.tid.toNat % 256 := by
  obtain ⟨hbuilt, -⟩ := lpfBuildWritesTheFrame s
  obtain ⟨t', ht', ⟨hout, -⟩, -⟩ := hbuilt hfits
  injection h.symm.trans ht' with ht
  rw [ht, hout 0 (by simp), hout 1 (by simp)]
  have hlt := s.tid.isLt
  exact ⟨(BitVec.toNat_ofNat ..).trans (Nat.mod_eq_of_lt (by omega)), BitVec.toNat_ofNat ..⟩

theorem exec_lpfBuild_nextTid (s t : State) (h : exec .lpfBuild s = .next t) (hfits : s.inLen.toNat + 7 ≤ s.bufSize) :
    t.err = .none ∧ t.tid = s.nextTid := by
  rw [exec_lpfBuild_ok s hfits] at h
  injection h with h
  rw [← h]
  exact ⟨rfl, rfl⟩

/-- No command but LPF_BUILD changes TID (R184). -/
theorem CommandEnd.tid {i : Instr} {s t : State} (h : CommandEnd i s t) (hi : i ≠ .lpfBuild) : t.tid = s.tid := by
  cases h with
  | failed _ _ _ _ eq => rw [eq]; rfl
  | quiet _ _ eq => rw [eq]; rfl
  | output _ x _ _ _ _ _ _ eq _ _ tid =>
    rw [eq]
    exact not_imp_comm.1 tid hi

theorem exec_port_tid (i : Instr) (s t : State) (hc : isCommand i = false) (h : exec i s = .next t) :
    t.tid = s.tid := by
  rcases exec_port_ends i s t hc h with ⟨-, rfl⟩ | ⟨-, ⟨_, _, -, rfl⟩ | ⟨_, _, -, rfl⟩⟩ <;> rfl

/-- Settles O35: the instruction is LPF_BUILD, which fails or builds, or it is another one. -/
theorem tidChangesOnlyByTheIncrement : Obligations.TidChangesOnlyByTheIncrement := by
  intro i s t h
  by_cases hi : i = .lpfBuild
  · subst hi
    rcases exec_lpfBuild_fails_or_fits s t h with ⟨d, rfl⟩ | hfits
    · have hfailed : (failedWith s .range d).err ≠ .none := nofun
      exact ⟨fun _ hok => absurd hok hfailed, fun _ hok => absurd hok hfailed, fun _ => rfl⟩
    · obtain ⟨hok, htid⟩ := exec_lpfBuild_nextTid s t h hfits
      refine ⟨fun _ _ => exec_lpfBuild_header s t h hfits, fun _ _ hinc => ?incremented, fun hnot => ?kept⟩
      case incremented =>
        rw [htid, State.nextTid, if_pos hinc, BitVec.toNat_add]
        rfl
      case kept => rw [htid, State.nextTid, if_neg fun hinc => hnot ⟨rfl, hok, hinc⟩]
  · refine ⟨fun h' => absurd h' hi, fun h' => absurd h' hi, fun _ => ?kept⟩
    case kept =>
      cases hc : isCommand i with
      | true => exact (exec_command_ends i s t hc h).tid hi
      | false => exact exec_port_tid i s t hc h

end Sys2Proof.Machine
end

section
/-! Host writes to CMD and STATUS while no command runs, and the soft reset by a write to CTRL, a command running or not
(44_control.md R202, R209, R210; 70_reset_and_hazards.md R251). -/

namespace Sys2Proof.Machine

/-- Settles O7: the write action of CMD is the acceptance of R202. -/
theorem cmdWriteIsAccepted : Obligations.CmdWriteIsAccepted :=
  fun s ts v hidle hin hturn => step_wr_reg_idle s .cmd v ts hturn hin hidle

/-- The write action of STATUS in the words of R209: a flag written 1 is cleared, every other one is kept. -/
theorem clearFlags_eq_ite (s : State) (v : Word) :
    s.clearFlags v = { s with
      done := if v.getLsbD 1 then false else s.done
      werr := if v.getLsbD 2 then false else s.werr } := by
  have keepUnless (flag written : Bool) : (flag && !written) = if written then false else flag := by
    cases written <;> simp
  simp only [State.clearFlags, keepUnless]

/-- Settles O49, by the write action of STATUS. -/
theorem statusWriteClearsFlags : Obligations.StatusWriteClearsFlags := by
  intro s ts v hidle hin hturn
  rw [step_wr_reg_idle s .status v ts hturn hin hidle]
  exact congrArg _ (clearFlags_eq_ite _ v)

/-- A write to CTRL with the soft reset bit is a soft reset, whether or not a command runs (R210). -/
theorem hostWrite_ctrl_softReset (off : Nat) (v : Word) (s : State) (h : v.getLsbD 0 = true) :
    hostWrite (.reg .ctrl) off v s = s.softReset :=
  if_pos h

/-- A soft reset keeps of the state before it only the parameters, the buffers and the model's own fields; everything
else is as in the reset state (R251). -/
theorem softReset_eq_reset (s : State) :
    s.softReset = { State.reset with
      param := s.param, mem := s.mem, base := s.base, resetIn := s.resetIn, turns := s.turns, reply := s.reply
      powerOns := s.powerOns, busyReads := s.busyReads } :=
  rfl

/-- Settles O50: the step is the soft reset of the state with the turn taken. -/
theorem softResetResetsTheRegisters : Obligations.SoftResetResetsTheRegisters := by
  intro s ts v hin hturn hsrst
  rw [step_wr_reg s .ctrl v ts hturn hin, runAction_write, hostWrite_ctrl_softReset _ v _ hsrst, softReset_eq_reset]
  simp only [hin]
  rfl

end Sys2Proof.Machine
end

section
/-! What a command that fails leaves, and which commands can fail with a CHECKSUM error (60_exceptions.md R226). -/

namespace Sys2Proof.Machine

/-- The state a command's completion step leaves, from its body (44_control.md R203). -/
theorem eq_complete_of_completion (r : BodyResult) (t : State) (h : completion r = .next t) : t = complete r := by
  injection h with h
  exact h.symm

/-- A body that starts with the check of another error, and still ends with CHECKSUM, has passed that check. -/
theorem checksum_of_guard {p : Prop} [Decidable p] {s : State} {c : ErrCat} {d : ErrDet} {r : BodyResult}
    (h : (complete (if p then raiseErr s c d else r)).err = .checksum) (hc : c ≠ .checksum := by decide) :
    ¬p ∧ (complete r).err = .checksum := by
  by_cases hp : p
  · rw [if_pos hp] at h
    exact absurd h hc
  · rw [if_neg hp] at h
    exact ⟨hp, h⟩

/-- A body that passes its checks and ends normally does not end with CHECKSUM. -/
theorem ok_err_ne_checksum (s : State) : (complete (.ok s)).err ≠ .checksum := nofun

theorem raiseErr_err_ne_checksum (s : State) (c : ErrCat) (d : ErrDet) (hc : c ≠ .checksum) :
    (complete (raiseErr s c d)).err ≠ .checksum := hc

/-- Only RTU_PARSE and ASC_PARSE compare a checksum: a body of another command is a chain of checks with other errors. -/
theorem checksum_only_from_parses (i : Instr) (s t : State) (hi : isCommand i = true) (h : exec i s = .next t)
    (herr : t.err = .checksum) : i = .rtuParse ∨ i = .ascParse := by
  cases i with
  | rtuParse => exact .inl rfl
  | ascParse => exact .inr rfl
  | nop | crcInit | lrcInit =>
    rw [eq_complete_of_completion _ t h] at herr
    exact absurd herr (ok_err_ne_checksum _)
  | crcBuf | lrcBuf =>
    rw [eq_complete_of_completion _ t h] at herr
    obtain ⟨-, herr⟩ := checksum_of_guard herr
    exact absurd herr (ok_err_ne_checksum _)
  | rtuBuild | ascBuild | lpfBuild =>
    rw [eq_complete_of_completion _ t h] at herr
    obtain ⟨-, herr⟩ := checksum_of_guard herr
    obtain ⟨-, herr⟩ := checksum_of_guard herr
    exact absurd herr (ok_err_ne_checksum _)
  | lpfParse =>
    rw [eq_complete_of_completion _ t h] at herr
    obtain ⟨-, herr⟩ := checksum_of_guard herr
    obtain ⟨-, herr⟩ := checksum_of_guard herr
    obtain ⟨-, herr⟩ := checksum_of_guard herr
    exact absurd herr (ok_err_ne_checksum _)
  | reservedB | reservedC | reservedD | reservedE | reservedF | illegalRsvbits =>
    rw [eq_complete_of_completion _ t h] at herr
    exact absurd herr (raiseErr_err_ne_checksum _ _ _ (by decide))
  | crcDin | lrcDin => exact absurd hi Bool.false_ne_true

/-- What RTU_PARSE compares when it ends with CHECKSUM (R132, R226). -/
theorem exec_rtuParse_checksum (s t : State) (h : exec .rtuParse s = .next t) (herr : t.err = .checksum) :
    t.chkCalc = crc16 (s.inputBytes.take (s.inLen.toNat - 2)) ∧
      t.chkRx = half (s.ibufAt (s.inLen.toNat - 1)) (s.ibufAt (s.inLen.toNat - 2)) ∧ t.chkCalc ≠ t.chkRx := by
  have hbody := herr
  rw [eq_complete_of_completion _ t h] at hbody
  obtain ⟨hfits, hbody⟩ := checksum_of_guard hbody
  obtain ⟨hlong, -⟩ := checksum_of_guard hbody
  rw [State.inCount_eq, Nat.not_lt] at hfits hlong
  by_cases heq : crc16 (s.inputBytes.take (s.inLen.toNat - 2)) =
      half (s.ibufAt (s.inLen.toNat - 1)) (s.ibufAt (s.inLen.toNat - 2))
  · injection h.symm.trans (exec_rtuParse_ok s _ _ rfl rfl hfits hlong heq) with ht
    exact absurd herr (ht ▸ nofun)
  · injection h.symm.trans (exec_rtuParse_crc s _ _ rfl rfl hfits hlong heq) with ht
    rw [ht]
    exact ⟨rfl, rfl, heq⟩

/-- An input on which ASC_PARSE ends with CHECKSUM has passed the checks of its length and its marks (R152). -/
theorem ascMarked_of_checksum (s t : State) (h : exec .ascParse s = .next t) (herr : t.err = .checksum) :
    s.AscMarked := by
  rw [eq_complete_of_completion _ t h] at herr
  obtain ⟨hfits, herr⟩ := checksum_of_guard herr
  obtain ⟨hlong, herr⟩ := checksum_of_guard herr
  obtain ⟨hstart, herr⟩ := checksum_of_guard herr
  obtain ⟨hend, -⟩ := checksum_of_guard herr
  rw [not_or, not_not, not_not] at hend
  obtain ⟨hcr, hlf⟩ := hend
  exact ⟨Nat.not_lt.1 hfits, Nat.not_lt.1 hlong, not_not.1 hstart, hcr, hlf⟩

/-- What ASC_PARSE compares when it ends with CHECKSUM (R152, R226). -/
theorem exec_ascParse_checksum (s t : State) (h : exec .ascParse s = .next t) (herr : t.err = .checksum) :
    ∃ d rx, hexDec s.ascText = .ok d ∧ d[d.length - 1]? = some rx ∧ lrc (d.take (d.length - 1)) ≠ rx ∧
      t.chkCalc = (lrc (d.take (d.length - 1))).setWidth 16 ∧ t.chkRx = rx.setWidth 16 := by
  have hmarked := ascMarked_of_checksum s t h herr
  cases htext : hexDec s.ascText with
  | error e =>
    injection h.symm.trans (exec_ascParse_hexError s hmarked e htext) with ht
    exact absurd herr (ht ▸ nofun)
  | ok d =>
    have hlong := hmarked.long
    have hlen := length_of_hexDec _ d htext
    rw [State.length_ascText] at hlen
    have hu : d[0]? = some (d[0]'(by omega)) := List.getElem?_eq_getElem _
    have hrx : d[d.length - 1]? = some (d[d.length - 1]'(by omega)) := List.getElem?_eq_getElem _
    by_cases heq : lrc (d.take (d.length - 1)) = d[d.length - 1]'(by omega)
    · injection h.symm.trans (exec_ascParse_ok s hmarked d htext _ _ _ hu rfl hrx heq) with ht
      exact absurd herr (ht ▸ nofun)
    · injection h.symm.trans (exec_ascParse_lrc s hmarked d htext _ _ _ hu rfl hrx heq) with ht
      rw [ht]
      exact ⟨d, _, rfl, hrx, heq, rfl, rfl⟩

/-- A command that fails writes at most the two compared values beside its report, and those only with CHECKSUM (R226). -/
theorem CommandEnd.eq_failedWith {i : Instr} {s t : State} (h : CommandEnd i s t) (herr : t.err ≠ .none) :
    t = { failedWith s t.err t.det with chkCalc := t.chkCalc, chkRx := t.chkRx } ∧
      (t.err ≠ .checksum → t.chkCalc = s.chkCalc ∧ t.chkRx = s.chkRx) := by
  cases h with
  | failed c d cc rx eq _ _ kept => subst eq; exact ⟨rfl, kept⟩
  | quiet _ _ eq => exact absurd (eq ▸ rfl) herr
  | output _ _ _ _ _ _ _ _ eq => exact absurd (eq ▸ rfl) herr

/-- A byte held in a 16-bit register is read back from its low half. -/
theorem setWidth_8_setWidth_16 (b : Byte) : (b.setWidth 16).setWidth 8 = b := by
  rw [BitVec.setWidth_setWidth_of_le _ (by decide), BitVec.setWidth_eq]

theorem setWidth_16_injective : Function.Injective (BitVec.setWidth 16 : Byte → Half) :=
  Function.LeftInverse.injective setWidth_8_setWidth_16

/-- Settles O36: the failure's frame from the ways a command ends, the compared values from the command that compares. -/
theorem failedCommandsArePrecise : Obligations.FailedCommandsArePrecise := by
  intro i s t hi h herr
  obtain ⟨heq, hkept⟩ := (exec_command_ends i s t hi h).eq_failedWith herr
  refine ⟨fun hne => ?plain, fun hchk => ?checksum⟩
  case plain =>
    obtain ⟨hcalc, hrx⟩ := hkept hne
    rw [hcalc, hrx] at heq
    exact heq
  case checksum =>
    rw [hchk] at heq
    rcases checksum_only_from_parses i s t hi h hchk with rfl | rfl
    · obtain ⟨hcalc, hrx, hne⟩ := exec_rtuParse_checksum s t h hchk
      refine ⟨heq, hne, .inl ⟨rfl, hcalc, ?_⟩⟩
      rw [hrx, half, toNat_append_byte]
      omega
    · obtain ⟨d, rx, htext, hlast, hne, hcalc, hrx⟩ := exec_ascParse_checksum s t h hchk
      refine ⟨heq, ?differ, .inr ⟨rfl, d, htext, ?calculated, ?received, ?byte⟩⟩
      case differ =>
        rw [hcalc, hrx]
        exact fun hwide => hne (setWidth_16_injective hwide)
      case calculated => rw [hcalc, BitVec.toNat_setWidth_of_le (by decide)]
      case received => rw [hrx, setWidth_8_setWidth_16, hlast]
      case byte =>
        rw [hrx, BitVec.toNat_setWidth_of_le (by decide)]
        exact rx.isLt

end Sys2Proof.Machine
end

section
/-! What a host reads from each register, as a number (10_state.md R26 to R46). -/

namespace Sys2Proof.Machine

theorem bitNat_eq_toNat (b : Bool) : bitNat b = b.toNat := by cases b <;> rfl

/-- A concatenation as a number: the high part above the `m` bits of the low one. -/
theorem toNat_append_eq_add {n m : Nat} (x : BitVec n) (y : BitVec m) : (x ++ y).toNat = x.toNat * 2 ^ m + y.toNat := by
  rw [BitVec.toNat_append, ← Nat.shiftLeft_add_eq_or_of_lt y.isLt, Nat.shiftLeft_eq]

/-- The STATUS word as the sum of its fields at their places (10_state.md R30). -/
theorem toNat_statusWord (s : State) : s.statusWord.toNat = regValue s .status := by
  simp only [State.statusWord, regValue, bitNat_eq_toNat, toNat_append_eq_add, BitVec.toNat_ofBool, BitVec.toNat_ofNat]
  omega

/-- The CTRL word as the sum of its fields at their places (44_control.md R207). -/
theorem toNat_ctrlWord (s : State) : s.ctrlWord.toNat = regValue s .ctrl := by
  simp only [State.ctrlWord, regValue, bitNat_eq_toNat, toNat_append_eq_add, BitVec.toNat_ofBool, BitVec.toNat_ofNat]
  omega

/-- LRC_VAL as a number (10_state.md R40). -/
theorem toNat_lrcVal (s : State) : s.lrcVal.toNat = regValue s .lrcVal :=
  BitVec.toNat_ofNat _ 8

/-- What a host reads from a register is its value (10_state.md R26 to R46). -/
theorem toNat_readReg (s : State) (r : Reg) : (s.readReg r).toNat = regValue s r := by
  cases r with
  | id | cmd | crcDin | lrcDin => rfl
  | ctrl => exact toNat_ctrlWord s
  | status => exact toNat_statusWord s
  | lrcVal => exact (BitVec.toNat_setWidth_of_le (by decide)).trans (toNat_lrcVal s)
  | _ => exact BitVec.toNat_setWidth_of_le (by decide)

/-- No register's value depends on the model's own fields that a host access sets. -/
theorem readReg_hostTurn (s : State) (ts : List Turn) (reply : Option Word) (r : Reg) :
    State.readReg { s with turns := ts, reply := reply } r = s.readReg r := by
  cases r <;> rfl

end Sys2Proof.Machine
end

section
/-! The hazards of a running command: a host read replies a register's value or an unspecified word, a host write is
dropped (70_reset_and_hazards.md R262, R263). -/

namespace Sys2Proof.Machine

/-- The four registers below CMD, and no others, are readable while a command runs (10_state.md section 3, R263). -/
theorem readableWhileBusy_reg (r : Reg) : readableWhileBusy (.reg r) = decide (regOffset r < 0x010) := by
  cases r <;> rfl

theorem readableWhileBusy_of_mem : ∀ r ∈ [Reg.id, .param, .ctrl, .status], readableWhileBusy (.reg r) = true := by
  decide

/-- From CMD on, buffers included, no mapped word is readable while a command runs (R263). -/
theorem not_readableWhileBusy_of_offset (bufSize size off : Nat) (t : Target)
    (ht : accessTarget bufSize size off = some t) (hoff : 0x010 ≤ off) : readableWhileBusy t = false := by
  cases t with
  | ibuf => rfl
  | obuf => rfl
  | reg r =>
    rw [offset_of_accessTarget_reg _ _ _ r ht] at hoff
    rw [readableWhileBusy_reg, decide_eq_false (Nat.not_lt.2 hoff)]

/-- A host read of a word that a running command leaves readable replies its value (R263). -/
theorem hostRead_readable (t : Target) (off : Nat) (s : State) (ht : readableWhileBusy t = true) :
    hostRead t off s = { s with reply := some (s.readTarget t off) } := by
  simp [hostRead, ht]

/-- A host read of any other word while a command runs replies the next free value (R263, U3). -/
theorem hostRead_unspecified (t : Target) (off : Nat) (s : State) (hb : s.busy = true)
    (ht : readableWhileBusy t = false) :
    hostRead t off s = { s with reply := some (Config.busyReadData s.busyReads), busyReads := s.busyReads + 1 } := by
  simp [hostRead, hb, ht]

/-- Settles O44, by whether the word is one of the four readable registers. -/
theorem readWhileBusy : Obligations.ReadWhileBusy := by
  intro s ts off hbuf hb hin hmapped hturn
  refine ⟨?readable, fun hoff => ?unspecified⟩
  case readable =>
    rintro r hr rfl
    refine ⟨s.readReg r, ?_, toNat_readReg s r⟩
    rw [step_rd s _ ts (.reg r) hturn hin (regOffset_lt r) (accessTarget_reg _ r),
      hostRead_readable _ _ _ (readableWhileBusy_of_mem r hr), State.readTarget, readReg_hostTurn]
  case unspecified =>
    obtain ⟨t, ht⟩ := accessTarget_of_mapped s.bufSize off hbuf hmapped
    refine ⟨Config.busyReadData s.busyReads, ?_⟩
    rw [step_rd s off ts t hturn hin (mappedWord_lt _ off hbuf.2.2 hmapped) ht]
    exact congrArg _ (hostRead_unspecified t off _ hb (not_readableWhileBusy_of_offset _ _ off t ht hoff))

/-- A host write while a command runs is dropped, unless it requests a soft reset (R262). -/
theorem hostWrite_busy (t : Target) (off : Nat) (v : Word) (s : State) (hb : s.busy = true)
    (hs : isSoftReset t v = false) : hostWrite t off v s = s.dropWrite := by
  simp [hostWrite, hb, hs]

/-- Only a write to CTRL with bit 0 set requests a soft reset (44_control.md R210). -/
theorem isSoftReset_eq_false (bufSize size off : Nat) (t : Target) (v : Word)
    (ht : accessTarget bufSize size off = some t) (h : ¬(off = 0x008 ∧ v.getLsbD 0 = true)) :
    isSoftReset t v = false := by
  refine Bool.eq_false_iff.2 fun hs => h ?_
  obtain ⟨rfl, hv⟩ : t = .reg .ctrl ∧ v.getLsbD 0 = true := by simpa [isSoftReset] using hs
  exact ⟨offset_of_accessTarget_reg _ _ _ .ctrl ht, hv⟩

/-- Settles O45: the write of a mapped word other than a soft reset is dropped, port writes included. -/
theorem writeWhileBusyIsDropped : Obligations.WriteWhileBusyIsDropped := by
  intro s ts off v hbuf hb hin hmapped hturn hsrst
  obtain ⟨t, ht⟩ := accessTarget_of_mapped s.bufSize off hbuf hmapped
  rw [step_wr s off v ts t hturn hin (mappedWord_lt _ off hbuf.2.2 hmapped) ht, runAction_write]
  exact congrArg _ (hostWrite_busy t off v _ hb (isSoftReset_eq_false _ _ off t v ht hsrst))

end Sys2Proof.Machine
end

section
/-! Power-on reset: what stands still while the input is asserted, and the state at its release (70_reset_and_hazards.md
R250). -/

namespace Sys2Proof.Machine

/-- While reset is asserted no host access is answered, refused ones included (assumption log entry 6). -/
theorem hostAccess_inReset (a : Access) (s : State) (hin : s.resetIn = true) : hostAccess a s = .answer (.next s) := by
  unfold hostAccess
  split
  · rfl
  · exact if_pos hin

/-- While reset is asserted the engine does not move, a command in flight or not (60_exceptions.md R230). -/
theorem engineAction_inReset (s : State) (hin : s.resetIn = true) : engineAction s = .answer (.next s) := by
  simp [engineAction, State.engineEnabled, hin]

/-- Releasing the asserted input: the reset state but for the parameters and the model's own fields (R250). -/
theorem releaseReset_eq_reset (s : State) (hin : s.resetIn = true) :
    releaseReset s = { State.reset with
      param := s.param, base := s.base, turns := s.turns, reply := s.reply
      powerOns := s.powerOns + 1, busyReads := s.busyReads } :=
  if_pos hin

/-- Settles O54, edge by edge and agent by agent. -/
theorem powerOnResetGivesTheTable : Obligations.PowerOnResetGivesTheTable := by
  intro s ts
  refine ⟨fun hturn => ?asserted, fun hin a hturn => ?host, fun hin hturn => ?engine, fun hin hturn => ?released⟩
  case asserted =>
    exact ⟨assertReset { s with turns := ts }, step_cons s _ ts hturn, rfl, rfl, rfl, rfl⟩
  case host =>
    rw [step_cons s _ ts hturn]
    exact congrArg runAction (hostAccess_inReset a { s with turns := ts, reply := none } hin)
  case engine =>
    rw [step_cons s _ ts hturn]
    exact congrArg runAction (engineAction_inReset { s with turns := ts } hin)
  case released =>
    rw [step_cons s _ ts hturn]
    exact congrArg Host.Outcome.next (releaseReset_eq_reset { s with turns := ts } hin)

/-- Settles O55: State.reset is a literal, so each entry of the table of R250 is read off it. -/
theorem resetStateHoldsTheTable : Obligations.ResetStateHoldsTheTable := by
  unfold Obligations.ResetStateHoldsTheTable
  decide

end Sys2Proof.Machine
end

section
/-! Decoding and encoding undo each other (30_encoding.md R80 to R87). -/

namespace Sys2Proof.Machine

theorem decode_cmd (v : Word) : decode ⟨cmdOffset, v⟩ = .ok (decodeCommand v) := rfl

theorem decode_crcDin (v : Word) : decode ⟨crcDinOffset, v⟩ = .ok (decodeCrcDin v) := rfl

theorem decode_lrcDin (v : Word) : decode ⟨lrcDinOffset, v⟩ = .ok (decodeLrcDin v) := rfl

/-- A host write that decodes is at one of the three offsets, and decodes by the format of that offset (R80, R81). -/
theorem decode_eq_ok (e : Encoding) (i : Instr) (h : decode e = .ok i) :
    (e.offset = cmdOffset ∧ i = decodeCommand e.data) ∨ (e.offset = crcDinOffset ∧ i = decodeCrcDin e.data) ∨
      (e.offset = lrcDinOffset ∧ i = decodeLrcDin e.data) := by
  unfold decode at h
  split at h
  · rename_i ho
    injection h with h
    exact .inl ⟨ho, h.symm⟩
  · split at h
    · rename_i ho
      injection h with h
      exact .inr (.inl ⟨ho, h.symm⟩)
    · split at h
      · rename_i ho
        injection h with h
        exact .inr (.inr ⟨ho, h.symm⟩)
      · exact absurd h nofun

/-- A word with some reserved bit set is the illegal command, its two fields read off (R84). -/
theorem decodeCommand_append (rsv : BitVec 28) (op : BitVec 4) (h : rsv ≠ 0) :
    decodeCommand (rsv ++ op) = .illegalRsvbits rsv op := by
  have hrsv : (rsv ++ op).extractLsb' 4 28 = rsv := BitVec.extractLsb'_append_eq_left
  have hop : (rsv ++ op).extractLsb' 0 4 = op := BitVec.extractLsb'_append_eq_right
  rw [decodeCommand, hrsv, hop, if_neg h]

theorem decodeCrcDin_append (ignored : BitVec 24) (byte : Byte) :
    decodeCrcDin (ignored ++ byte) = .crcDin byte ignored := by
  rw [decodeCrcDin]
  exact congrArg₂ Instr.crcDin BitVec.extractLsb'_append_eq_right BitVec.extractLsb'_append_eq_left

theorem decodeLrcDin_append (ignored : BitVec 24) (byte : Byte) :
    decodeLrcDin (ignored ++ byte) = .lrcDin byte ignored := by
  rw [decodeLrcDin]
  exact congrArg₂ Instr.lrcDin BitVec.extractLsb'_append_eq_right BitVec.extractLsb'_append_eq_left

/-- Settles O2, by the instruction: an opcode's word is a literal, the words with fields are concatenations of them. -/
theorem decodeOfEncodeIsTheInstruction : Obligations.DecodeOfEncodeIsTheInstruction := by
  intro i hwf
  cases i with
  | illegalRsvbits rsv op =>
    have hrsv : rsv ≠ 0 := by simpa [wellFormed] using hwf
    exact (decode_cmd _).trans (congrArg _ (decodeCommand_append rsv op hrsv))
  | crcDin byte ignored => exact (decode_crcDin _).trans (congrArg _ (decodeCrcDin_append ignored byte))
  | lrcDin byte ignored => exact (decode_lrcDin _).trans (congrArg _ (decodeLrcDin_append ignored byte))
  | _ => rfl

/-- Each of the sixteen opcodes encodes as itself (R82, R85). -/
theorem encode_decodeOp : ∀ op : BitVec 4, encode (decodeOp op) = encodeOp (op.setWidth 32) := by decide

theorem wellFormed_decodeOp : ∀ op : BitVec 4, wellFormed (decodeOp op) = true := by decide

/-- A word is its reserved bits followed by OP (R80). -/
theorem reservedBits_append_op (v : Word) : v.extractLsb' 4 28 ++ v.extractLsb' 0 4 = v :=
  (BitVec.extractLsb'_append_extractLsb'_eq_extractLsb' rfl).trans BitVec.extractLsb'_eq_self

/-- The word of a port write is its ignored bits followed by its byte (R81). -/
theorem ignoredBits_append_byte (v : Word) : v.extractLsb' 8 24 ++ v.extractLsb' 0 8 = v :=
  (BitVec.extractLsb'_append_extractLsb'_eq_extractLsb' rfl).trans BitVec.extractLsb'_eq_self

theorem encode_decodeCommand (v : Word) : encode (decodeCommand v) = ⟨cmdOffset, v⟩ := by
  by_cases h : v.toNat / 16 = 0
  · have hop : (v.extractLsb' 0 4).setWidth 32 = v :=
      BitVec.eq_of_toNat_eq ((BitVec.toNat_setWidth_of_le (by decide)).trans (toNat_op_of_no_reservedBits v h))
    rw [decodeCommand_of_no_reservedBits v h, encode_decodeOp, hop, encodeOp]
  · rw [decodeCommand_of_reservedBits v h]
    exact congrArg (Encoding.mk cmdOffset) (reservedBits_append_op v)

theorem wellFormed_decodeCommand (v : Word) : wellFormed (decodeCommand v) = true := by
  by_cases h : v.toNat / 16 = 0
  · rw [decodeCommand_of_no_reservedBits v h]
    exact wellFormed_decodeOp _
  · rw [decodeCommand_of_reservedBits v h]
    exact bne_iff_ne.2 (mt (reservedBits_eq_zero_iff v).1 h)

/-- Settles O3, by the register that the write addresses. -/
theorem encodeOfDecodeIsTheWrite : Obligations.EncodeOfDecodeIsTheWrite := by
  rintro ⟨off, v⟩ i h
  rcases decode_eq_ok _ i h with ⟨rfl, rfl⟩ | ⟨rfl, rfl⟩ | ⟨rfl, rfl⟩
  · exact ⟨encode_decodeCommand v, wellFormed_decodeCommand v⟩
  · exact ⟨congrArg (Encoding.mk crcDinOffset) (ignoredBits_append_byte v), rfl⟩
  · exact ⟨congrArg (Encoding.mk lrcDinOffset) (ignoredBits_append_byte v), rfl⟩

/-- Settles O1: each word is a literal, so the decoder computes what it stands for. -/
theorem writtenWordsDecode : Obligations.WrittenWordsDecode := by
  unfold Obligations.WrittenWordsDecode
  decide

end Sys2Proof.Machine
end

section
/-! The invariant of the block (00_scope.md section 4): it holds after reset, and each way a step can end keeps it. -/

namespace Sys2Proof.Machine

/-- The invariant does not speak of the model's own schedule, reply and counter of free values. -/
theorem State.Inv.modelFields {s : State} (h : s.Inv) (ts : List Turn) (r : Option Word) (n : Nat) :
    State.Inv { s with turns := ts, reply := r, busyReads := n } :=
  { h with }

/-- Bytes stored within the buffers keep the invariant (20_memory.md R60). -/
theorem State.Inv.storeBytes {s : State} (h : s.Inv) (a : Nat) (bs : List Byte)
    (hin : ∀ k, a ≤ k → k < a + bs.length → inBuffers s.bufSize k) : (s.storeBytes a bs).Inv :=
  { h with
    memWf := Memory.insertBytes_keeps_wf bs s.mem a h.memWf
    memMapped := fun c hc => (Memory.mem_insertBytes bs s.mem a c hc).elim
      (fun ⟨hlo, hhi⟩ => hin c.1 hlo hhi) (h.memMapped c) }

/-- A command keeps the invariant, whichever way it ends: its report meets the clauses on STATUS, and its output lies in
OBUF (44_control.md R203, 60_exceptions.md R226). -/
theorem CommandEnd.inv {i : Instr} {s t : State} (h : CommandEnd i s t) (hs : s.Inv) : t.Inv := by
  cases h with
  | failed c d cc rx eq cat =>
    subst eq
    exact { hs with
      busyClean := nofun, errMatchesDet := cat, errEmptiesOutput := fun _ => rfl, outLenFits := Nat.zero_le _
      resetIdle := fun _ => rfl }
  | quiet a l eq =>
    subst eq
    exact { hs with
      busyClean := nofun, errMatchesDet := rfl, errEmptiesOutput := fun herr => absurd rfl herr
      resetIdle := fun _ => rfl }
  | output out x cc rx rt rp rl ru eq fits =>
    subst eq
    have hstored := hs.storeBytes Config.obufBase out fun k hlo hhi => .inr ⟨hlo, by omega⟩
    exact { hstored with
      busyClean := nofun, errMatchesDet := rfl, errEmptiesOutput := fun herr => absurd rfl herr
      outLenFits := (s.toNat_putOutput_outLen out fits).trans_le fits
      resetIdle := fun _ => rfl }

theorem State.Inv.softReset {s : State} (h : s.Inv) : s.softReset.Inv :=
  { h with
    busyClean := nofun, errMatchesDet := rfl, errEmptiesOutput := fun _ => rfl, outLenFits := Nat.zero_le _
    resetIdle := fun _ => rfl }

/-- Power-on reset meets the invariant whether its input is then asserted or released (70_reset_and_hazards.md R250). -/
theorem State.Inv.powerOnReset {s : State} (h : s.Inv) (asserted : Bool) :
    State.Inv { s.powerOnReset with resetIn := asserted } :=
  { h.softReset with memWf := List.Pairwise.nil, memMapped := nofun, resetIdle := fun _ => rfl }

theorem State.Inv.dropWrite {s : State} (h : s.Inv) : s.dropWrite.Inv := { h with }

/-- Acceptance leaves STATUS as a running command has it (44_control.md R202). -/
theorem State.Inv.accept {s : State} (h : s.Inv) (v : Word) (hin : s.resetIn = false) : (s.accept v).Inv :=
  { h with
    busyClean := fun _ => ⟨rfl, rfl, rfl, rfl⟩, errMatchesDet := rfl, errEmptiesOutput := fun herr => absurd rfl herr
    resetIdle := fun hin' => absurd (hin.symm.trans hin') Bool.false_ne_true }

theorem State.Inv.clearFlags {s : State} (h : s.Inv) (v : Word) (hidle : s.busy = false) : (s.clearFlags v).Inv :=
  { h with busyClean := fun hbusy => absurd (hidle.symm.trans hbusy) Bool.false_ne_true }

theorem writeReg_ctrl_softReset (s : State) (v : Word) (h : v.getLsbD 0 = true) : s.writeReg .ctrl v = s.softReset :=
  if_pos h

theorem State.Inv.writeReg {s : State} (h : s.Inv) (r : Reg) (v : Word) (hin : s.resetIn = false)
    (hidle : s.busy = false) : (s.writeReg r v).Inv := by
  cases r with
  | ctrl =>
    by_cases hsrst : v.getLsbD 0 = true
    · exact writeReg_ctrl_softReset s v hsrst ▸ h.softReset
    · rw [writeReg_ctrl s v (Bool.eq_false_iff.2 hsrst)]
      exact { h with }
  | status => exact h.clearFlags v hidle
  | cmd => exact h.accept v hin
  | _ => exact { h with }

theorem hostWrite_softReset (t : Target) (off : Nat) (v : Word) (s : State) (h : isSoftReset t v = true) :
    hostWrite t off v s = s.softReset :=
  if_pos h

/-- A host write keeps the invariant: dropped, a soft reset, or the write action of a word, which for IBUF lies within
the buffer (20_memory.md R64, 70_reset_and_hazards.md R262). -/
theorem State.Inv.hostWrite {s : State} (h : s.Inv) (t : Target) (off : Nat) (v : Word) (hin : s.resetIn = false)
    (ht : accessTarget s.bufSize 4 off = some t) : (hostWrite t off v s).Inv := by
  cases hs : isSoftReset t v with
  | true => exact hostWrite_softReset t off v s hs ▸ h.softReset
  | false =>
    cases hb : s.busy with
    | true => exact hostWrite_busy t off v s hb hs ▸ h.dropWrite
    | false =>
      rw [hostWrite_idle t off v s hb]
      cases t with
      | reg r => exact h.writeReg r v hin hb
      | obuf => exact h
      | ibuf =>
        obtain ⟨hlo, hhi⟩ := offset_of_accessTarget_ibuf s.bufSize 4 off h.bufLegal.1 ht
        refine h.storeBytes off (unpackWord v) fun k hk hk' => .inl ⟨by omega, ?_⟩
        rw [length_unpackWord] at hk'
        omega

theorem State.Inv.exec_port {s t : State} (h : s.Inv) (i : Instr) (hi : isCommand i = false) (he : exec i s = .next t) :
    t.Inv := by
  rcases exec_port_ends i s t hi he with ⟨-, rfl⟩ | ⟨-, ⟨_, _, -, rfl⟩ | ⟨_, _, -, rfl⟩⟩
  · exact h.dropWrite
  · exact { h with }
  · exact { h with }

/-- Settles O60, by the ways a step ends. -/
theorem everyStepKeepsTheInvariant : Obligations.EveryStepKeepsTheInvariant := by
  intro s t hs h
  cases step_ends s t h with
  | quiet ts r eq => exact eq ▸ hs.modelFields ts r s.busyReads
  | command ts i _ _ isCmd eq =>
    exact (exec_command_ends i _ t isCmd eq).inv (hs.modelFields ts s.reply s.busyReads)
  | port ts i _ isPort _ eq => exact (hs.modelFields ts none s.busyReads).exec_port i isPort eq
  | read ts r n eq => exact eq ▸ hs.modelFields ts r n
  | write ts target off v notReset mapped _ eq =>
    exact eq ▸ (hs.modelFields ts none s.busyReads).hostWrite target off v notReset mapped
  | resetAssert ts eq => exact eq ▸ (hs.modelFields ts s.reply s.busyReads).powerOnReset true
  | resetRelease ts eq => exact eq ▸ (hs.modelFields ts s.reply s.busyReads).powerOnReset false

/-- Settles O59: the clauses on the memory hold of an empty one, the others are read off the literal State.reset. -/
theorem resetMeetsTheInvariant : Obligations.ResetMeetsTheInvariant where
  memWf := reset_memory_wf
  memMapped := nofun
  bufLegal := by decide
  baseLegal := rfl
  busyClean := nofun
  errMatchesDet := rfl
  errEmptiesOutput := fun _ => rfl
  outLenFits := Nat.zero_le _
  resetIdle := nofun

end Sys2Proof.Machine
end

section
/-! The engine's turn and the command it completes (10_state.md R22; 44_control.md R203, R205, R206; 60_exceptions.md
R220, R229). -/

namespace Sys2Proof.Machine

/-- Settles O11: every arm of `exec` is a completion step or a port write, and both answer a next state. -/
theorem everyInstructionEndsInANextState : Obligations.EveryInstructionEndsInANextState := by
  intro i s
  cases i <;> exact ⟨_, rfl⟩

/-- Settles O12: NOP's body does nothing before the completion. -/
theorem nopChangesOnlyStatus : Obligations.NopChangesOnlyStatus := completion_ok

/-- Settles O13: the body of an illegal command raises its error at once. -/
theorem illegalCommandsReportIllegal : Obligations.IllegalCommandsReportIllegal := by
  refine fun s => ⟨fun i hi => ?_, fun _ _ => completion_raiseErr s .illegal .rsvbits⟩
  fin_cases hi <;> exact completion_raiseErr s .illegal .opcode

theorem engineAction_busy (s : State) (hb : s.busy = true) (hin : s.resetIn = false) :
    engineAction s = .run (decodeCommand s.pending) s :=
  if_pos (by simp [State.engineEnabled, hb, hin])

theorem engineAction_idle (s : State) (hb : s.busy = false) : engineAction s = .answer (.next s) :=
  if_neg (by simp [State.engineEnabled, hb])

/-- The engine's turn with a command in flight runs what PENDING decodes to (R22). -/
theorem step_engine_busy (s : State) (ts : List Turn) (hb : s.busy = true) (hin : s.resetIn = false)
    (hturn : s.turns = .engine :: ts) : step s = exec (decodeCommand s.pending) { s with turns := ts } := by
  rw [step_cons s _ ts hturn]
  exact congrArg runAction (engineAction_busy { s with turns := ts } hb hin)

/-- Settles O5: PENDING decodes as a CMD write does, and the engine runs that with a turn taken or with none left. -/
theorem engineStepRunsTheDecodedCommand : Obligations.EngineStepRunsTheDecodedCommand := by
  intro s i hb hin hdec
  injection (decode_cmd s.pending).symm.trans hdec with hdec
  subst hdec
  refine ⟨fun ts hturn => step_engine_busy s ts hb hin hturn, fun hturn => ?_⟩
  rw [step_nil s hturn, engineAction_busy s hb hin, runAction_run]

/-- Settles O9: the engine is not enabled. -/
theorem idleEngineMoveChangesNothing : Obligations.IdleEngineMoveChangesNothing := by
  refine fun s hb => ⟨fun ts hturn => ?_, fun hturn => ?_⟩
  · rw [step_cons s _ ts hturn]
    exact congrArg runAction (engineAction_idle { s with turns := ts } hb)
  · rw [step_nil s hturn, engineAction_idle s hb, runAction_answer]

/-- What the completion step of every command reports, and what it keeps (R203, 60_exceptions.md R226). -/
structure CompletedFrom (s t : State) : Prop where
  busy : t.busy = false
  done : t.done = true
  errMatchesDet : t.err = detCategory t.det
  errEmptiesOutput : t.err ≠ .none → t.outLen = 0
  lastop : t.lastop = s.lastop
  werr : t.werr = s.werr
  pending : t.pending = s.pending
  ie : t.ie = s.ie
  tidinc : t.tidinc = s.tidinc
  base : t.base = s.base
  resetIn : t.resetIn = s.resetIn
  turns : t.turns = s.turns

/-- However a command ends, it reports its completion. -/
theorem CommandEnd.completed {i : Instr} {s t : State} (h : CommandEnd i s t) : CompletedFrom s t := by
  cases h with
  | failed c d cc rx eq cat =>
    subst eq
    exact ⟨rfl, rfl, cat, fun _ => rfl, rfl, rfl, rfl, rfl, rfl, rfl, rfl, rfl⟩
  | quiet a l eq =>
    subst eq
    exact ⟨rfl, rfl, rfl, fun herr => absurd rfl herr, rfl, rfl, rfl, rfl, rfl, rfl, rfl, rfl⟩
  | output out x cc rx rt rp rl ru eq =>
    subst eq
    exact ⟨rfl, rfl, rfl, fun herr => absurd rfl herr, rfl, rfl, rfl, rfl, rfl, rfl, rfl, rfl⟩

/-- The engine's turn with a command in flight completes it (R203). -/
theorem step_engine_completes (s : State) (ts : List Turn) (hb : s.busy = true) (hin : s.resetIn = false)
    (hturn : s.turns = .engine :: ts) : ∃ t, step s = .next t ∧ CompletedFrom { s with turns := ts } t := by
  obtain ⟨t, ht⟩ := everyInstructionEndsInANextState (decodeCommand s.pending) { s with turns := ts }
  exact ⟨t, (step_engine_busy s ts hb hin hturn).trans ht,
    (exec_command_ends _ _ t (isCommand_decodeCommand _) ht).completed⟩

/-- Settles O8, by the report of every command. -/
theorem completionStepReports : Obligations.CompletionStepReports := by
  intro s ts hb hin hturn
  obtain ⟨t, ht, h⟩ := step_engine_completes s ts hb hin hturn
  exact ⟨t, ht, h.busy, h.done, h.errMatchesDet, h.errEmptiesOutput, h.turns, h.lastop, h.werr,
    h.pending, h.ie, h.tidinc⟩

/-- Settles O56: a command leaves DONE = 1 and IE as it was; the three writes clear DONE or IE. -/
theorem interruptFollowsCompletion : Obligations.InterruptFollowsCompletion := by
  refine ⟨fun i s t hi h => ?command, fun s t ts v hidle hin h => ⟨fun hturn => ?cmd, fun hturn hv => ?status,
    fun hturn hv => ?ctrl⟩⟩
  case command =>
    have hdone := (exec_command_ends i s t hi h).completed
    rw [State.irq, hdone.done, hdone.ie, Bool.true_and]
  case cmd =>
    injection h.symm.trans (step_wr_reg_idle s .cmd v ts hturn hin hidle) with ht
    rw [ht]
    rfl
  case status =>
    injection h.symm.trans (step_wr_reg_idle s .status v ts hturn hin hidle) with ht
    rw [ht]
    change (s.done && !v.getLsbD 1 && s.ie) = false
    rw [hv, Bool.not_true, Bool.and_false, Bool.false_and]
  case ctrl =>
    injection h.symm.trans (step_wr_reg_idle s .ctrl v ts hturn hin hidle) with ht
    cases hsrst : v.getLsbD 0 with
    | true =>
      rw [ht, writeReg_ctrl_softReset _ v hsrst]
      rfl
    | false =>
      rw [ht, writeReg_ctrl _ v hsrst]
      change (s.done && v.getLsbD 1) = false
      rw [hv, Bool.and_false]

end Sys2Proof.Machine
end

section
/-! POLL: a host that reads STATUS until it sees DONE (30_encoding.md R90; 10_state.md R22). -/

namespace Sys2Proof.Machine

/-- A host read of STATUS returns its word, command running or not (20_memory.md R63, 70_reset_and_hazards.md R263). -/
theorem step_pollRead (s : State) (ts : List Turn) (hin : s.resetIn = false) (hturn : s.nextLine pollRead ts) :
    step s = .next { s with turns := ts, reply := some s.statusWord } := by
  rw [step_rd s _ ts (.reg .status) hturn hin (regOffset_lt .status) (accessTarget_reg _ .status)]
  exact congrArg _ (hostRead_readable _ _ _ rfl)

/-- DONE is bit 1 of STATUS and BUSY bit 0 (10_state.md R30). -/
theorem getLsbD_statusWord (s : State) : s.statusWord.getLsbD 1 = s.done ∧ s.statusWord.getLsbD 0 = s.busy :=
  ⟨BitVec.getLsbD_append.trans (BitVec.getLsbD_append.trans (by simp)), BitVec.getLsbD_append.trans (by simp)⟩

/-- POLL with no read before the completion step: the engine's move, and the read that sees it. -/
theorem run_poll_zero (s : State) (ts : List Turn) (hb : s.busy = true) (hin : s.resetIn = false)
    (hturn : s.turns = pollTurns s.base 0 ++ ts) :
    ∃ t w, Host.Core.run core 2 s = .next t ∧ t.turns = ts ∧ t.reply = some w ∧
      w.getLsbD 1 = true ∧ w.getLsbD 0 = false := by
  obtain ⟨t, ht, hdone⟩ := step_engine_completes s (lineTurn s.base pollRead :: ts) hb hin hturn
  have hread := step_pollRead t ts (hdone.resetIn.trans hin) (hdone.turns.trans (by rw [hdone.base]))
  obtain ⟨hbit1, hbit0⟩ := getLsbD_statusWord t
  refine ⟨{ t with turns := ts, reply := some t.statusWord }, t.statusWord, ?_, rfl, rfl, hbit1.trans hdone.done,
    hbit0.trans hdone.busy⟩
  rw [run_succ 1 s t ht, run_succ 0 t _ hread]
  rfl

/-- Settles O10, by induction on the number of reads before the completion step: each leaves the command in flight. -/
theorem pollSeesCompletion : Obligations.PollSeesCompletion := by
  intro k
  induction k with
  | zero => exact run_poll_zero
  | succ k ih =>
    intro s ts hb hin hturn
    have hread := step_pollRead s (pollTurns s.base k ++ ts) hin hturn
    rw [run_succ (k + 2) s _ hread]
    exact ih _ ts hb hin rfl

end Sys2Proof.Machine
end

section
/-! Port writes (40_bytes_and_checksum.md R112, R113; 70_reset_and_hazards.md R267), and a message fed line by line
(30_encoding.md R90). -/

namespace Sys2Proof.Machine

theorem exec_crcDin_idle (s : State) (b : Byte) (ignored : BitVec 24) (hb : s.busy = false) :
    exec (.crcDin b ignored) s = .next (s.feedCrc b) :=
  congrArg _ (if_neg (Bool.eq_false_iff.1 hb))

theorem exec_lrcDin_idle (s : State) (b : Byte) (ignored : BitVec 24) (hb : s.busy = false) :
    exec (.lrcDin b ignored) s = .next (s.feedLrc b) :=
  congrArg _ (if_neg (Bool.eq_false_iff.1 hb))

/-- Settles O17: the port's byte is fed to its engine; addition of bytes is that of numbers modulo 256. -/
theorem portWritesFeedTheirEngine : Obligations.PortWritesFeedTheirEngine :=
  fun s b ignored hb => ⟨exec_crcDin_idle s b ignored hb, exec_lrcDin_idle s b ignored hb⟩

/-- Settles O18: both ports drop the write. -/
theorem portWritesWhileBusyAreDropped : Obligations.PortWritesWhileBusyAreDropped :=
  fun _ _ _ hb => ⟨congrArg _ (if_pos hb), congrArg _ (if_pos hb)⟩

/-- Settles O6, by the port that the write addresses. -/
theorem portWriteStepRunsTheDecodedInstruction : Obligations.PortWriteStepRunsTheDecodedInstruction := by
  intro s ts off v i hin hturn hoff hdec
  rcases decode_eq_ok _ i hdec with ⟨hcmd, -⟩ | ⟨rfl, rfl⟩ | ⟨rfl, rfl⟩
  · exact absurd hcmd hoff
  · exact step_wr_reg s .crcDin v ts hturn hin
  · exact step_wr_reg s .lrcDin v ts hturn hin

/-- One line of FEED CRC while no command runs (R90, R112). -/
theorem step_feedCrcLine (s : State) (b : Byte) (ts : List Turn) (hb : s.busy = false) (hin : s.resetIn = false)
    (hturn : s.nextLine (.wr crcDinOffset (b.setWidth 32)) ts) :
    step s = .next { s with turns := ts, reply := none, crcAcc := crcStep s.crcAcc b } := by
  have hbyte : (b.setWidth 32).extractLsb' 0 8 = b := by
    rw [← BitVec.setWidth_eq_extractLsb' (by decide), BitVec.setWidth_setWidth_of_le _ (by decide), BitVec.setWidth_eq]
  rw [step_wr_reg_idle s .crcDin _ ts hturn hin hb, State.writeReg, hbyte]
  rfl

/-- Settles O19, by induction on the message: one line applies its first byte. -/
theorem feedCrcAppliesTheBytesInOrder : Obligations.FeedCrcAppliesTheBytesInOrder := by
  intro bs
  induction bs with
  | nil =>
    rintro s ts - - - rfl
    rfl
  | cons b bs ih =>
    intro s ts hb hin hreply hturn
    have hstep := step_feedCrcLine s b ((feedCrcLines bs).map (lineTurn s.base) ++ ts) hb hin hturn
    rw [hreply]
    exact (run_succ bs.length s _ hstep).trans (ih _ ts hb hin rfl rfl)

end Sys2Proof.Machine
end

section
/-! `hex_val` and `hex_dec` by their rules (40_bytes_and_checksum.md R102, R103). -/

namespace Sys2Proof.Machine

theorem toNat_hexVal_decimal (c : Byte) (hlo : 0x30 ≤ c.toNat) (hhi : c.toNat ≤ 0x39) :
    (hexVal c).map BitVec.toNat = some (c.toNat - 0x30) := by
  rw [hexVal, if_pos ⟨hlo, hhi⟩, Option.map_some, BitVec.toNat_ofNat, Nat.mod_eq_of_lt (by omega)]

theorem toNat_hexVal_upper (c : Byte) (hlo : 0x41 ≤ c.toNat) (hhi : c.toNat ≤ 0x46) :
    (hexVal c).map BitVec.toNat = some (c.toNat - 0x41 + 10) := by
  rw [hexVal, if_neg (by omega), if_pos ⟨hlo, hhi⟩, Option.map_some, BitVec.toNat_ofNat, Nat.mod_eq_of_lt (by omega)]

theorem toNat_hexVal_lower (c : Byte) (hlo : 0x61 ≤ c.toNat) (hhi : c.toNat ≤ 0x66) :
    (hexVal c).map BitVec.toNat = some (c.toNat - 0x61 + 10) := by
  rw [hexVal, if_neg (by omega), if_neg (by omega), if_pos ⟨hlo, hhi⟩, Option.map_some, BitVec.toNat_ofNat,
    Nat.mod_eq_of_lt (by omega)]

theorem hexVal_eq_none (c : Byte) (h : c.toNat < 0x30 ∨ (0x39 < c.toNat ∧ c.toNat < 0x41) ∨
    (0x46 < c.toNat ∧ c.toNat < 0x61) ∨ 0x66 < c.toNat) : hexVal c = none := by
  rw [hexVal, if_neg (by omega), if_neg (by omega), if_neg (by omega)]

/-- Byte `j` of `d` has the two digits of pair `j` of the text `t`, the high one first (R103). -/
def IsDigitPair (t d : List Byte) (j : Nat) : Prop :=
  ∃ hi lo, hexVal (t.getD (2 * j) 0) = some hi ∧ hexVal (t.getD (2 * j + 1) 0) = some lo ∧
    (d.getD j 0).toNat = hi.toNat * 16 + lo.toNat

/-- A pair of digits and a text that decodes make up a text that decodes. -/
theorem hexPairs_cons_cons (a b : Byte) (t d : List Byte) (hi lo : BitVec 4) (ha : hexVal a = some hi)
    (hb : hexVal b = some lo) (ht : hexPairs t = some d) : hexPairs (a :: b :: t) = some ((hi ++ lo) :: d) := by
  simp only [hexPairs, ha, hb, ht]

/-- Text of whole pairs whose characters are all digits decodes pair by pair. -/
theorem hexPairs_of_digits : (t : List Byte) → t.length % 2 = 0 → (∀ c ∈ t, hexVal c ≠ none) →
    ∃ d, hexPairs t = some d ∧ ∀ j < d.length, IsDigitPair t d j
  | [], _, _ => ⟨[], rfl, fun j hj => absurd hj (Nat.not_lt_zero j)⟩
  | [_], hodd, _ => by simp at hodd
  | a :: b :: t, heven, hdigits => by
    have heven' : t.length % 2 = 0 := by simp only [List.length_cons] at heven; omega
    obtain ⟨hi, ha⟩ := Option.ne_none_iff_exists'.1 (hdigits a (by simp))
    obtain ⟨lo, hb⟩ := Option.ne_none_iff_exists'.1 (hdigits b (by simp))
    obtain ⟨d, hd, hpairs⟩ := hexPairs_of_digits t heven' fun c hc => hdigits c (by simp [hc])
    refine ⟨(hi ++ lo) :: d, hexPairs_cons_cons a b t d hi lo ha hb hd, fun j hj => ?_⟩
    cases j with
    | zero => exact ⟨hi, lo, ha, hb, toNat_append_eq_add hi lo⟩
    | succ j => exact hpairs j (Nat.lt_of_succ_lt_succ hj)

theorem hexDec_of_hexPairs (t d : List Byte) (heven : t.length % 2 = 0) (h : hexPairs t = some d) :
    hexDec t = .ok d := by
  rw [hexDec, if_neg (by omega), h]

/-- Settles O20: a digit by its range, a text by its length and then by whether all its characters are digits. -/
theorem hexDecodeFollowsItsRule : Obligations.HexDecodeFollowsItsRule := by
  refine ⟨fun c => ⟨toNat_hexVal_decimal c, toNat_hexVal_upper c, toNat_hexVal_lower c, hexVal_eq_none c⟩,
    fun t => ⟨hexDec_of_odd t, fun heven ⟨c, hmem, hc⟩ => hexDec_of_nonhex t heven c hmem hc,
      fun heven hdigits => ?digits⟩⟩
  case digits =>
    obtain ⟨d, hd, hpairs⟩ := hexPairs_of_digits t heven hdigits
    have hlen := length_of_hexPairs t d hd
    exact ⟨d, hexDec_of_hexPairs t d heven hd, by omega, hpairs⟩

/-- Settles O21: the text has whole pairs, and each digit of `hex_enc` reads back. -/
theorem hexDecodeUndoesHexEncode : Obligations.HexDecodeUndoesHexEncode := hexDec_hexEnc

end Sys2Proof.Machine
end

section
/-! The checksums of a message followed by its own checksum (40_bytes_and_checksum.md R106, R109), and the three ways
to compute one (R119). -/

namespace Sys2Proof.Machine

/-- An iteration of `crc_step` on an accumulator whose low bit is 0 only shifts (R104). -/
theorem crcShift_of_low_clear (acc : Half) (h : acc.getLsbD 0 = false) : crcShift acc = acc >>> 1 :=
  if_neg (Bool.eq_false_iff.1 h)

/-- As long as 0 bits leave it, the accumulator is only shifted. -/
theorem crcShifts_of_low_clear (n : Nat) (acc : Half) (h : ∀ i < n, acc.getLsbD i = false) :
    crcShifts n acc = acc >>> n := by
  induction n generalizing acc with
  | zero => rw [crcShifts, BitVec.ushiftRight_zero]
  | succ n ih =>
    have hclear : ∀ i < n, (acc >>> 1).getLsbD i = false := fun i hi => by
      rw [BitVec.getLsbD_ushiftRight, h (1 + i) (by omega)]
    rw [crcShifts, crcShift_of_low_clear acc (h 0 (Nat.succ_pos n)), ih _ hclear, ← BitVec.shiftRight_add, Nat.add_comm]

/-- The low byte of the accumulator, fed to it, leaves its high byte. -/
theorem crcStep_lowByte (acc : Half) : crcStep acc (acc.extractLsb' 0 8) = (acc.extractLsb' 8 8).setWidth 16 := by
  have hclear : ∀ i < 8, (acc ^^^ (acc.extractLsb' 0 8).setWidth 16).getLsbD i = false := fun i hi => by
    simp [hi, show i < 16 by omega]
  rw [crcStep, crcShifts_of_low_clear 8 _ hclear]
  apply BitVec.eq_of_getLsbD_eq
  intro i hi
  by_cases h8 : i < 8
  · simp [h8, hi]
  · simpa [h8, hi] using BitVec.getLsbD_of_ge acc (8 + i) (by omega)

/-- A byte fed to an accumulator that holds just that byte leaves 0. -/
theorem crcStep_self (b : Byte) : crcStep (b.setWidth 16) b = 0 := by
  rw [crcStep, BitVec.xor_self]
  rfl

/-- Settles O22: the CRC's low byte leaves its high byte in the accumulator, and that byte then leaves 0. -/
theorem crcResidueIsZero : Obligations.CrcResidueIsZero := by
  intro s
  rw [crc16, List.foldl_append]
  change crcStep (crcStep (crc16 s) ((crc16 s).extractLsb' 0 8)) ((crc16 s).extractLsb' 8 8) = 0
  rw [crcStep_lowByte, crcStep_self]

/-- The complement of R108 is negation modulo 256. -/
theorem lrcOfSum_eq_neg (sum : Byte) : lrcOfSum sum = -sum := by
  apply BitVec.eq_of_toNat_eq
  rw [lrcOfSum, BitVec.toNat_ofNat, BitVec.toNat_neg]

/-- Settles O23: the last byte added is the negated sum. -/
theorem lrcOfMessageAndLrcSumsToZero : Obligations.LrcOfMessageAndLrcSumsToZero := by
  intro s
  rw [lrcSum, List.foldl_append]
  change lrcSum s + lrc s = 0
  rw [lrc, lrcOfSum_eq_neg]
  exact BitVec.add_right_neg _

/-- Instructions one after the other, the first of which is known to answer a next state. -/
theorem execAll_cons (i : Instr) (is : List Instr) (s t : State) (h : exec i s = .next t) :
    execAll (i :: is) s = execAll is t := by
  simp only [execAll, h]

/-- Two instructions one after the other. -/
theorem execAll_pair (i j : Instr) (s t u : State) (hi : exec i s = .next t) (hj : exec j t = .next u) :
    execAll [i, j] s = .next u :=
  (execAll_cons i [j] s t hi).trans (execAll_cons j [] t u hj)

/-- A message fed byte by byte to the CRC port while no command runs (R112). -/
theorem execAll_crcDin (bs : List Byte) (s : State) (hb : s.busy = false) :
    execAll (bs.map fun b => .crcDin b 0) s = .next { s with crcAcc := bs.foldl crcStep s.crcAcc } := by
  induction bs generalizing s with
  | nil => rfl
  | cons b bs ih =>
    rw [List.map_cons, execAll_cons _ _ s _ (exec_crcDin_idle s b 0 hb)]
    exact ih (s.feedCrc b) hb

/-- A message fed byte by byte to the LRC port while no command runs (R113). -/
theorem execAll_lrcDin (bs : List Byte) (s : State) (hb : s.busy = false) :
    execAll (bs.map fun b => .lrcDin b 0) s = .next { s with lrcSum := bs.foldl (· + ·) s.lrcSum } := by
  induction bs generalizing s with
  | nil => rfl
  | cons b bs ih =>
    rw [List.map_cons, execAll_cons _ _ s _ (exec_lrcDin_idle s b 0 hb)]
    exact ih (s.feedLrc b) hb

theorem exec_lrcBuf_ok (s : State) (hfits : s.inLen.toNat ≤ s.bufSize) :
    exec .lrcBuf s = .next { s with
      lrcSum := s.lrcSum + lrcSum s.inputBytes, err := .none, det := .none, busy := false, done := true } := by
  rw [exec_lrcBuf, lrcBufBody_ok s hfits, completion_ok, State.inputBytes_eq]

/-- Settles O24: each way starts from the same initial value and folds the same bytes. -/
theorem threeWaysToComputeAChecksumAgree : Obligations.ThreeWaysToComputeAChecksumAgree := by
  intro s hfits
  obtain ⟨hcrc, hlrc, -⟩ := initCommandsSetTheirAccumulator s
  obtain ⟨hcrcBuf, -⟩ := crcBufFeedsTheInput { s with
    crcAcc := 0xFFFF, err := .none, det := .none, busy := false, done := true }
  refine ⟨?crcBuf, fun bs => ?crcPort, fun hframe => ?rtu, ?lrcBuf, fun bs => ?lrcPort, fun hframe => ?asc⟩
  case crcBuf => exact ⟨_, execAll_pair _ _ s _ _ hcrc (hcrcBuf hfits), rfl⟩
  case crcPort => exact ⟨_, (execAll_cons _ _ s _ hcrc).trans (execAll_crcDin bs _ rfl), rfl⟩
  case rtu => exact ⟨_, exec_rtuBuild_ok s hframe, rfl⟩
  case lrcBuf =>
    exact ⟨_, execAll_pair _ _ s _ _ hlrc (exec_lrcBuf_ok _ hfits), congrArg lrcOfSum (BitVec.zero_add _)⟩
  case lrcPort => exact ⟨_, (execAll_cons _ _ s _ hlrc).trans (execAll_lrcDin bs _ rfl), rfl⟩
  case asc => exact ⟨_, exec_ascBuild_ok s hframe, BitVec.toNat_setWidth_of_le (by decide)⟩

end Sys2Proof.Machine
end

section
/-! What an instruction may change: accumulators, OUT_LEN, and the bytes of the output (10_state.md R33, R36, R38, R47,
R48, R52; 20_memory.md R78). -/

namespace Sys2Proof.Machine

/-- A command that changes an accumulator is one of the two commands of that accumulator (R52). -/
theorem CommandEnd.accumulators {i : Instr} {s t : State} (h : CommandEnd i s t) :
    (t.crcAcc ≠ s.crcAcc → i = .crcInit ∨ i = .crcBuf) ∧ (t.lrcSum ≠ s.lrcSum → i = .lrcInit ∨ i = .lrcBuf) := by
  cases h with
  | failed _ _ _ _ eq => subst eq; exact ⟨absurd rfl, absurd rfl⟩
  | quiet _ _ eq _ crc lrc => subst eq; exact ⟨crc, lrc⟩
  | output _ _ _ _ _ _ _ _ eq => subst eq; exact ⟨absurd rfl, absurd rfl⟩

/-- A port write that changes an accumulator is that accumulator's own (R52). -/
theorem exec_port_accumulators (i : Instr) (s t : State) (hc : isCommand i = false) (h : exec i s = .next t) :
    (t.crcAcc ≠ s.crcAcc → ∃ b g, i = .crcDin b g) ∧ (t.lrcSum ≠ s.lrcSum → ∃ b g, i = .lrcDin b g) := by
  rcases exec_port_ends i s t hc h with ⟨-, rfl⟩ | ⟨-, ⟨b, g, hi, rfl⟩ | ⟨b, g, hi, rfl⟩⟩
  · exact ⟨absurd rfl, absurd rfl⟩
  · exact ⟨fun _ => ⟨b, g, hi⟩, absurd rfl⟩
  · exact ⟨absurd rfl, fun _ => ⟨b, g, hi⟩⟩

/-- Settles O37: an instruction is a command or a port write. -/
theorem accumulatorsChangeOnlyByTheirOwn : Obligations.AccumulatorsChangeOnlyByTheirOwn := by
  intro i s t h
  cases hc : isCommand i with
  | true =>
    obtain ⟨hcrc, hlrc⟩ := (exec_command_ends i s t hc h).accumulators
    exact ⟨fun hne => (hcrc hne).imp_right .inl, fun hne => (hlrc hne).imp_right .inl⟩
  | false =>
    obtain ⟨hcrc, hlrc⟩ := exec_port_accumulators i s t hc h
    exact ⟨fun hne => .inr (.inr (hcrc hne)), fun hne => .inr (.inr (hlrc hne))⟩

/-- Settles O38, by the ways a command ends. -/
theorem outLenCountsTheOutput : Obligations.OutLenCountsTheOutput := by
  intro i s t hi h
  have hend := exec_command_ends i s t hi h
  refine ⟨hend.completed.errEmptiesOutput, fun hok hquiet => ?quiet, fun hok hframe => ?frame⟩
  case quiet =>
    cases hend with
    | failed c _ _ _ eq _ isErr => subst eq; exact absurd hok isErr
    | quiet _ _ eq => subst eq; rfl
    | output _ _ _ _ _ _ _ _ _ _ frame => exact absurd (frame.symm.trans hquiet) (by decide)
  case frame =>
    cases hend with
    | failed c _ _ _ eq _ isErr => subst eq; exact absurd hok isErr
    | quiet _ _ _ frame => exact absurd (frame.symm.trans hframe) (by decide)
    | output out _ _ _ _ _ _ _ eq fits =>
      subst eq
      exact (s.toNat_putOutput_outLen out fits).trans_le fits

/-- A command without output leaves every byte of memory, and a command with output every byte outside it (R78). -/
theorem CommandEnd.readByte {i : Instr} {s t : State} (h : CommandEnd i s t) (a : Nat)
    (ha : (t.err ≠ .none ∨ isFrameCommand i = false) ∨ a < Config.obufBase ∨ Config.obufBase + t.outLen.toNat ≤ a) :
    t.readByte a = s.readByte a := by
  cases h with
  | failed _ _ _ _ eq => subst eq; rfl
  | quiet _ _ eq => subst eq; rfl
  | output out _ _ _ _ _ _ _ eq fits frame =>
    subst eq
    refine s.readByte_storeBytes_outside Config.obufBase out a ?_
    rw [← s.toNat_putOutput_outLen out fits]
    refine ha.resolve_left (not_or.2 ⟨absurd rfl, ?_⟩)
    rw [frame]
    decide

theorem exec_port_readByte (i : Instr) (s t : State) (hc : isCommand i = false) (h : exec i s = .next t) (a : Nat) :
    t.readByte a = s.readByte a := by
  rcases exec_port_ends i s t hc h with ⟨-, rfl⟩ | ⟨-, ⟨_, _, -, rfl⟩ | ⟨_, _, -, rfl⟩⟩ <;> rfl

/-- Settles O40: an instruction is a command or a port write, which writes no memory. -/
theorem commandsWriteOnlyTheirOutput : Obligations.CommandsWriteOnlyTheirOutput := by
  intro i s t a h
  cases hc : isCommand i with
  | true =>
    have hend := exec_command_ends i s t hc h
    exact ⟨fun hnone => hend.readByte a (.inl hnone), fun hout => hend.readByte a (.inr hout)⟩
  | false => exact ⟨fun _ => exec_port_readByte i s t hc h a, fun _ => exec_port_readByte i s t hc h a⟩

/-- Settles O39: a legal IBUF ends below OBUF. -/
theorem noInstructionWritesIbuf : Obligations.NoInstructionWritesIbuf := by
  intro i s t k hbuf h hk
  obtain ⟨-, hout⟩ := commandsWriteOnlyTheirOutput i s t (Config.ibufBase + k) h
  obtain ⟨-, -, hmax⟩ := hbuf
  exact hout (.inl (by simp only [Config.ibufBase, Config.obufBase]; omega))

end Sys2Proof.Machine
end

section
/-! Host accesses that the block accepts (10_state.md R26 to R46; 20_memory.md R61, R63, R66). -/

namespace Sys2Proof.Machine

/-- Settles O42: the read replies the register's word, whose number is the register's value. -/
theorem registerReadReturnsItsValue : Obligations.RegisterReadReturnsItsValue := by
  intro s ts r hb hin hturn
  refine ⟨s.readReg r, ?_, toNat_readReg s r⟩
  rw [step_rd s _ ts (.reg r) hturn hin (regOffset_lt r) (accessTarget_reg _ r),
    hostRead_idle _ _ { s with turns := ts, reply := none } hb, State.readTarget, readReg_hostTurn]

/-- An access to a target ends in a next state, read or write. -/
theorem accessTargetAction_next (t : Target) (off : Nat) (op : AccessOp) (s : State) :
    ∃ u, runAction (accessTargetAction t off op s) = .next u := by
  cases op with
  | read => exact ⟨_, rfl⟩
  | write v => exact ⟨_, runAction_write t off v s⟩

theorem engineAction_next (s : State) : ∃ u, runAction (engineAction s) = .next u := by
  unfold engineAction
  split
  · exact everyInstructionEndsInANextState _ s
  · exact ⟨s, rfl⟩

/-- Settles O52, by the next turn. -/
theorem onlyRefusedAccessesFault : Obligations.OnlyRefusedAccessesFault := by
  intro s hbuf
  refine ⟨fun off op ts hmapped hturn => ?access, fun hnohost => ?noAccess⟩
  case access =>
    cases hin : s.resetIn with
    | true =>
      rw [step_cons s _ ts hturn]
      exact ⟨_, congrArg runAction (hostAccess_inReset _ { s with turns := ts, reply := none } hin)⟩
    | false =>
      obtain ⟨t, ht⟩ := accessTarget_of_mapped s.bufSize off hbuf hmapped
      rw [step_host s off 4 op ts t hturn hin (mappedWord_lt _ off hbuf.2.2 hmapped) ht]
      exact accessTargetAction_next t off op _
  case noAccess =>
    cases hturn : s.turns with
    | nil =>
      rw [step_nil s hturn]
      exact engineAction_next s
    | cons turn ts =>
      rw [step_cons s turn ts hturn]
      cases turn with
      | host a => exact absurd hturn (hnohost a ts)
      | engine => exact engineAction_next _
      | resetAssert => exact ⟨_, rfl⟩
      | resetRelease => exact ⟨_, rfl⟩

end Sys2Proof.Machine
end

section
/-! What a command reads of the buffers: IBUF[0..IN_LEN) alone (10_state.md R47; 30_encoding.md R83). -/

namespace Sys2Proof.Machine

/-- `s` with other buffers. -/
def State.withMem (s : State) (m : Memory) : State := { s with mem := m }

/-- The memory `m` holds the input bytes of `s` (30_encoding.md R83). -/
def State.SameInput (s : State) (m : Memory) : Prop := ∀ k < s.inLen.toNat, (s.withMem m).ibufAt k = s.ibufAt k

section
variable {s : State} {m : Memory}

@[simp] theorem State.withMem_inCount : (s.withMem m).inCount = s.inCount := rfl
@[simp] theorem State.withMem_unit : (s.withMem m).unit = s.unit := rfl
@[simp] theorem State.withMem_tid : (s.withMem m).tid = s.tid := rfl
@[simp] theorem State.withMem_nextTid : (s.withMem m).nextTid = s.nextTid := rfl

theorem State.SameInput.inputBytes (h : s.SameInput m) : (s.withMem m).inputBytes = s.inputBytes :=
  List.map_congr_left fun k hk => h k (List.mem_range.1 hk)

theorem State.SameInput.input (h : s.SameInput m) : (s.withMem m).input = s.input := by
  rw [← State.inputBytes_eq, ← State.inputBytes_eq, h.inputBytes]

theorem State.SameInput.ibufSlice (h : s.SameInput m) (i j : Nat) (hj : j ≤ s.inLen.toNat) :
    (s.withMem m).ibufSlice i j = s.ibufSlice i j := by
  rw [State.ibufSlice_eq s i j hj, State.ibufSlice_eq (s.withMem m) i j hj, h.inputBytes]

theorem State.SameInput.ibufHalf (h : s.SameInput m) (i : Nat) (hi : i + 1 < s.inLen.toNat) :
    (s.withMem m).ibufHalf i = s.ibufHalf i := by
  rw [State.ibufHalf, State.ibufHalf, h i (by omega), h (i + 1) hi]

theorem State.obufAt_of_insertBytes (t : State) {mt : Memory} (out : List Byte)
    (ht : t.mem = Memory.insertBytes mt Config.obufBase out) (k : Nat) (hk : k < out.length) : t.obufAt k = out[k] := by
  simp [State.obufAt, State.readByte, ht, Memory.lookup_insertBytes_inside out mt Config.obufBase k hk]

/-- The ends `t` and `u` of a command from two memories agree in every register, a frame command's also in its output. -/
structure SameEnd (i : Instr) (t u : State) : Prop where
  regs : { u with mem := [] } = { t with mem := [] }
  output : isFrameCommand i = true → ∀ k < t.outLen.toNat, u.obufAt k = t.obufAt k

/-- An error leaves no output (60_exceptions.md R226). -/
theorem SameEnd.raise (i : Instr) (s : State) (m : Memory) (c : ErrCat) (d : ErrDet) :
    SameEnd i (complete (raiseErr s c d)) (complete (raiseErr (s.withMem m) c d)) :=
  ⟨rfl, fun _ k hk => absurd hk (Nat.not_lt_zero k)⟩

/-- A success without output. -/
theorem SameEnd.quiet (i : Instr) (s : State) (m : Memory) (a : Half) (l : Byte) (hi : isFrameCommand i = false) :
    SameEnd i (complete (.ok { s with crcAcc := a, lrcSum := l }))
      (complete (.ok { s.withMem m with crcAcc := a, lrcSum := l })) :=
  ⟨rfl, fun hframe => absurd (hi.symm.trans hframe) Bool.false_ne_true⟩

/-- A success with output: both memories hold it afterwards. -/
theorem SameEnd.putOutput {i : Instr} {t u : State} (mt mu : Memory) (out : List Byte)
    (hregs : { u with mem := [] } = { t with mem := [] }) (hlen : t.outLen = BitVec.ofNat 16 out.length)
    (ht : t.mem = Memory.insertBytes mt Config.obufBase out) (hu : u.mem = Memory.insertBytes mu Config.obufBase out) :
    SameEnd i t u := by
  refine ⟨hregs, fun _ k hk => ?_⟩
  have hcount : t.outLen.toNat ≤ out.length := by
    rw [hlen, BitVec.toNat_ofNat]
    exact Nat.mod_le _ _
  have hk' : k < out.length := Nat.lt_of_lt_of_le hk hcount
  rw [t.obufAt_of_insertBytes out ht k hk', u.obufAt_of_insertBytes out hu k hk']

/-- A check that comes out the same in both memories: its error, or the rest of the body. -/
theorem SameEnd.guard {i : Instr} {p p' : Prop} [Decidable p] [Decidable p'] {c : ErrCat} {d : ErrDet}
    {r r' : BodyResult} (hp : p' ↔ p) (h : ¬p → SameEnd i (complete r) (complete r')) :
    SameEnd i (complete (if p then raiseErr s c d else r))
      (complete (if p' then raiseErr (s.withMem m) c d else r')) := by
  by_cases hp' : p
  · rw [if_pos hp', if_pos (hp.2 hp')]
    exact .raise i s m c d
  · rw [if_neg hp', if_neg (mt hp.1 hp')]
    exact h hp'

theorem crcBufBody_sameEnd (h : s.SameInput m) :
    SameEnd .crcBuf (complete (crcBufBody s)) (complete (crcBufBody (s.withMem m))) := by
  unfold crcBufBody
  rw [h.input]
  exact .guard Iff.rfl fun _ => .quiet _ s m _ s.lrcSum rfl

theorem lrcBufBody_sameEnd (h : s.SameInput m) :
    SameEnd .lrcBuf (complete (lrcBufBody s)) (complete (lrcBufBody (s.withMem m))) := by
  unfold lrcBufBody
  rw [h.input]
  exact .guard Iff.rfl fun _ => .quiet _ s m s.crcAcc _ rfl

theorem rtuBuildBody_sameEnd (h : s.SameInput m) :
    SameEnd .rtuBuild (complete (rtuBuildBody s)) (complete (rtuBuildBody (s.withMem m))) := by
  unfold rtuBuildBody
  rw [h.input, State.withMem_unit]
  exact .guard Iff.rfl fun _ => .guard Iff.rfl fun _ => .putOutput s.mem m _ rfl rfl rfl rfl

theorem ascBuildBody_sameEnd (h : s.SameInput m) :
    SameEnd .ascBuild (complete (ascBuildBody s)) (complete (ascBuildBody (s.withMem m))) := by
  unfold ascBuildBody
  rw [h.input, State.withMem_unit]
  exact .guard Iff.rfl fun _ => .guard Iff.rfl fun _ => .putOutput s.mem m _ rfl rfl rfl rfl

theorem lpfBuildBody_sameEnd (h : s.SameInput m) :
    SameEnd .lpfBuild (complete (lpfBuildBody s)) (complete (lpfBuildBody (s.withMem m))) := by
  unfold lpfBuildBody
  rw [h.input, State.withMem_unit, State.withMem_tid, State.withMem_nextTid]
  exact .guard Iff.rfl fun _ => .guard Iff.rfl fun _ => .putOutput s.mem m _ rfl rfl rfl rfl

theorem rtuCheck_sameEnd (h : s.SameInput m) (n : Nat) (hlong : 5 ≤ n) (hn : n ≤ s.inLen.toNat) :
    SameEnd .rtuParse (complete (rtuCheck s n)) (complete (rtuCheck (s.withMem m) n)) := by
  simp only [rtuCheck, h.ibufSlice 0 (n - 2) (by omega), h.ibufSlice 1 (n - 2) (by omega), h (n - 1) (by omega),
    h (n - 2) (by omega), h 0 (by omega)]
  split
  · exact .putOutput s.mem m _ rfl rfl rfl rfl
  · exact .raise _ _ m _ _

theorem rtuParseBody_sameEnd (h : s.SameInput m) :
    SameEnd .rtuParse (complete (rtuParseBody s)) (complete (rtuParseBody (s.withMem m))) := by
  unfold rtuParseBody
  exact .guard Iff.rfl fun _ => .guard Iff.rfl fun hlong => rtuCheck_sameEnd h s.inCount (Nat.not_lt.1 hlong) le_rfl

theorem ascCheck_sameEnd (s : State) (m : Memory) (d : List Byte) :
    SameEnd .ascParse (complete (ascCheck s d)) (complete (ascCheck (s.withMem m) d)) := by
  simp only [ascCheck]
  split
  · exact .putOutput s.mem m _ rfl rfl rfl rfl
  · exact .raise _ _ m _ _

theorem ascParseBody_sameEnd (h : s.SameInput m) :
    SameEnd .ascParse (complete (ascParseBody s)) (complete (ascParseBody (s.withMem m))) := by
  unfold ascParseBody
  refine .guard Iff.rfl fun _ => .guard Iff.rfl fun hlong => ?_
  rw [State.inCount_eq] at hlong
  have hstart := h 0 (by omega)
  have hcr := h (s.inCount - 2) (by rw [State.inCount_eq]; omega)
  have hlf := h (s.inCount - 1) (by rw [State.inCount_eq]; omega)
  have htext := h.ibufSlice 1 (s.inCount - 2) (Nat.sub_le _ _)
  refine .guard (not_congr (hstart ▸ Iff.rfl)) fun _ => .guard (by rw [← hcr, ← hlf]; rfl) fun _ => ?_
  rw [State.withMem_inCount, htext]
  cases hexDec (s.ibufSlice 1 (s.inCount - 2)) with
  | error e => exact .raise _ s m _ _
  | ok d => exact ascCheck_sameEnd s m d

theorem lpfParseBody_sameEnd (h : s.SameInput m) :
    SameEnd .lpfParse (complete (lpfParseBody s)) (complete (lpfParseBody (s.withMem m))) := by
  unfold lpfParseBody
  refine .guard Iff.rfl fun _ => .guard Iff.rfl fun hlong => ?_
  rw [State.inCount_eq] at hlong
  have hfield := h.ibufHalf 4 (by omega)
  refine .guard (by rw [← hfield]; rfl) fun hlen => ?_
  rw [State.inCount_eq, not_not] at hlen
  rw [hfield, h.ibufHalf 0 (by omega), h.ibufHalf 2 (by omega), h 6 (by omega), h.ibufSlice 7 _ (by omega)]
  exact .putOutput s.mem m _ rfl rfl rfl rfl

end

/-- A command's ends from its bodies in the two memories. -/
theorem exec_sameEnd {i : Instr} {s : State} {m : Memory} {r r' : BodyResult} (hs : exec i s = completion r)
    (hm : exec i (s.withMem m) = completion r') (h : SameEnd i (complete r) (complete r')) :
    ∃ t u, exec i s = .next t ∧ exec i (s.withMem m) = .next u ∧ { u with mem := [] } = { t with mem := [] } ∧
      (isFrameCommand i = true → ∀ k < t.outLen.toNat, u.obufAt k = t.obufAt k) :=
  ⟨_, _, hs, hm, h.regs, h.output⟩

/-- Settles O41, command by command. -/
theorem inputBeyondInLenIsNotRead : Obligations.InputBeyondInLenIsNotRead := by
  intro i s m hi hin
  have h : s.SameInput m := hin
  cases i with
  | nop => exact exec_sameEnd rfl rfl (.quiet _ s m s.crcAcc s.lrcSum rfl)
  | crcInit => exact exec_sameEnd rfl rfl (.quiet _ s m _ s.lrcSum rfl)
  | lrcInit => exact exec_sameEnd rfl rfl (.quiet _ s m s.crcAcc _ rfl)
  | crcBuf => exact exec_sameEnd rfl rfl (crcBufBody_sameEnd h)
  | lrcBuf => exact exec_sameEnd rfl rfl (lrcBufBody_sameEnd h)
  | rtuBuild => exact exec_sameEnd rfl rfl (rtuBuildBody_sameEnd h)
  | rtuParse => exact exec_sameEnd rfl rfl (rtuParseBody_sameEnd h)
  | ascBuild => exact exec_sameEnd rfl rfl (ascBuildBody_sameEnd h)
  | ascParse => exact exec_sameEnd rfl rfl (ascParseBody_sameEnd h)
  | lpfBuild => exact exec_sameEnd rfl rfl (lpfBuildBody_sameEnd h)
  | lpfParse => exact exec_sameEnd rfl rfl (lpfParseBody_sameEnd h)
  | reservedB | reservedC | reservedD | reservedE | reservedF =>
    exact exec_sameEnd rfl rfl (.raise _ s m .illegal .opcode)
  | illegalRsvbits => exact exec_sameEnd rfl rfl (.raise _ s m .illegal .rsvbits)
  | crcDin | lrcDin => exact absurd hi Bool.false_ne_true

end Sys2Proof.Machine
end
